-- ==== Sys2Proof/Word.lean ====
section
/-! DEFINITION. The two word types of the block. -/

namespace Sys2Proof

/-- A byte: the width of a register, a memory cell and an opcode (00_scope.md R4). -/
abbrev Byte := BitVec 8

/-- A 16-bit word: `PC`, `SP`, a pair value, an address (00_scope.md R4). -/
abbrev Word := BitVec 16

end Sys2Proof
end

