-- ==== Sys2Proof/Syntax.lean ====
section
/-! DEFINITION. The instructions of the block: one constructor for each row of spec/opcode_table.json. -/

namespace Sys2Proof

/-- The eight operand slots of a register-select field (10_state.md R16). `m` is not a register: it is the memory
byte at address `HL` (R19). -/
inductive RegSel where
  | b | c | d | e | h | l | m | a
  deriving DecidableEq, Repr

/-- The targets of `LXI` (30_encoding.md R59). -/
inductive RegPair where
  | bc | de | hl | sp
  deriving DecidableEq, Repr

/-- The pairs that `LDAX` and `STAX` address memory through (30_encoding.md R61). -/
inductive IndirectPair where
  | bc | de
  deriving DecidableEq, Repr

/-- The instructions of 30_encoding.md R57, operand bytes included. -/
inductive Instr where
  /-- Set carry (R70). -/
  | stc
  /-- Complement carry (R71). -/
  | cmc
  /-- Increment a slot (R72). -/
  | inr (r : RegSel)
  /-- Decrement a slot (R73). -/
  | dcr (r : RegSel)
  /-- Complement the accumulator (R74). -/
  | cma
  /-- Halt (R76). -/
  | hlt
  /-- Move, destination first (R75). -/
  | mov (dst src : RegSel)
  /-- Store the accumulator indirect (R78). -/
  | stax (rp : IndirectPair)
  /-- Load the accumulator indirect (R77). -/
  | ldax (rp : IndirectPair)
  /-- Add (R81). -/
  | add (r : RegSel)
  /-- Add with carry (R82). -/
  | adc (r : RegSel)
  /-- Subtract (R83). -/
  | sub (r : RegSel)
  /-- Subtract with borrow (R84). -/
  | sbb (r : RegSel)
  /-- Logical AND (R85). -/
  | ana (r : RegSel)
  /-- Logical exclusive OR (R86). -/
  | xra (r : RegSel)
  /-- Logical OR (R87). -/
  | ora (r : RegSel)
  /-- Compare (R88). -/
  | cmp (r : RegSel)
  /-- Load a register pair with the 16-bit immediate (R91). -/
  | lxi (rp : RegPair) (d16 : Word)
  /-- Move the 8-bit immediate into a slot (R92). -/
  | mvi (r : RegSel) (d8 : Byte)
  /-- No operation (R93). -/
  | nop
  /-- One of the 92 opcode values that match no class, with its byte (R94). -/
  | unimpl (op : Byte)
  deriving DecidableEq, Repr

end Sys2Proof
end

