-- ==== Sys2Proof/WellFormed.lean ====
section
/-! DEFINITION. Which instruction terms stand for an encoding of the block. -/

namespace Sys2Proof

/-- The unimplemented opcode values below `0x40`, as 30_encoding.md R63 lists them (28 values). -/
def unimplementedLow : List Byte :=
  [0x03, 0x07, 0x08, 0x09, 0x0B, 0x0F, 0x10, 0x13, 0x17, 0x18, 0x19, 0x1B, 0x1F, 0x20] ++
  [0x22, 0x23, 0x27, 0x28, 0x29, 0x2A, 0x2B, 0x30, 0x32, 0x33, 0x38, 0x39, 0x3A, 0x3B]

/-- The 92 unimplemented opcode values (30_encoding.md R63): the list above and all of `0xC0` to `0xFF`. -/
def isUnimplemented (op : Byte) : Bool :=
  unimplementedLow.contains op || decide (0xC0 ≤ op.toNat)

/-- `MOV M,M` is no instruction, its encoding is `HLT` (30_encoding.md R64), and `unimpl` carries one of the 92
values only (R63). Every other operand is legal in every field (R65). -/
def Instr.wf : Instr → Bool
  | .mov dst src => !(dst == .m && src == .m)
  | .unimpl op => isUnimplemented op
  | .stc | .cmc | .cma | .hlt | .nop => true
  | .inr _ | .dcr _ => true
  | .stax _ | .ldax _ => true
  | .add _ | .adc _ | .sub _ | .sbb _ | .ana _ | .xra _ | .ora _ | .cmp _ => true
  | .lxi _ _ | .mvi _ _ => true

end Sys2Proof
end

