-- ==== Sys2Proof/Decode.lean ====
section
/-! DEFINITION. The decoder of 30_encoding.md R57 (total on any bytes, rejecting by name), and the encoder written from
the formats of R55. -/

namespace Sys2Proof

/-! ## Fields (R54) -/

/-- The slot a 3-bit register-select code names (10_state.md R16). -/
def RegSel.ofCode (code : BitVec 3) : RegSel :=
  match code with
  | 0b000#3 => .b
  | 0b001#3 => .c
  | 0b010#3 => .d
  | 0b011#3 => .e
  | 0b100#3 => .h
  | 0b101#3 => .l
  | 0b110#3 => .m
  | _ => .a

/-- The register-select code of a slot (10_state.md R16). -/
def RegSel.code : RegSel → BitVec 3
  | .b => 0b000
  | .c => 0b001
  | .d => 0b010
  | .e => 0b011
  | .h => 0b100
  | .l => 0b101
  | .m => 0b110
  | .a => 0b111

/-- The pair a 2-bit `rp` code names (30_encoding.md R59). -/
def RegPair.ofCode (code : BitVec 2) : RegPair :=
  match code with
  | 0b00#2 => .bc
  | 0b01#2 => .de
  | 0b10#2 => .hl
  | _ => .sp

/-- The `rp` code of a pair (30_encoding.md R59). -/
def RegPair.code : RegPair → BitVec 2
  | .bc => 0b00
  | .de => 0b01
  | .hl => 0b10
  | .sp => 0b11

/-- The pair the bit `pr` selects: 0 is `BC`, 1 is `DE` (30_encoding.md R61). -/
def IndirectPair.ofBit (pr : Bool) : IndirectPair := if pr then .de else .bc

/-- The bit `pr` of a pair (30_encoding.md R61). -/
def IndirectPair.bit : IndirectPair → BitVec 1
  | .bc => 0
  | .de => 1

/-- `op[5:3]`, the slot that is a destination or the only operand (R54). -/
def dddOf (op : Byte) : RegSel := .ofCode (op.extractLsb' 3 3)

/-- `op[2:0]`, the slot that is a source (R54). -/
def sssOf (op : Byte) : RegSel := .ofCode (op.extractLsb' 0 3)

/-- `op[5:4]`, the pair of `LXI` (R54). -/
def rpOf (op : Byte) : RegPair := .ofCode (op.extractLsb' 4 2)

/-- `op[4]`, the pair of `LDAX` and `STAX` (R54). -/
def prOf (op : Byte) : IndirectPair := .ofBit (op.getLsbD 4)

/-! ## Classification (R57) -/

/-- The twelve classes of R57. -/
inductive OpClass where
  | carryFlag | increment | decrement | complement | halt | move
  | indirect | alu | loadPair | moveImmediate | noOperation | unimplemented
  deriving DecidableEq, Repr

/-- One row of R57: an opcode matches it when `(op & mask) == pattern`. -/
structure PatternRow where
  mask : Byte
  pattern : Byte
  cls : OpClass
  deriving DecidableEq, Repr

/-- Rows 1 to 11 of R57, in its order (the halt row before the move row, R64). -/
def patternRows : List PatternRow :=
  [ ⟨0xF7, 0x37, .carryFlag⟩,
    ⟨0xC7, 0x04, .increment⟩,
    ⟨0xC7, 0x05, .decrement⟩,
    ⟨0xFF, 0x2F, .complement⟩,
    ⟨0xFF, 0x76, .halt⟩,
    ⟨0xC0, 0x40, .move⟩,
    ⟨0xE7, 0x02, .indirect⟩,
    ⟨0xC0, 0x80, .alu⟩,
    ⟨0xCF, 0x01, .loadPair⟩,
    ⟨0xC7, 0x06, .moveImmediate⟩,
    ⟨0xFF, 0x00, .noOperation⟩ ]

/-- The test of a row (R57). -/
def PatternRow.accepts (row : PatternRow) (op : Byte) : Bool := (op &&& row.mask) == row.pattern

/-- The class of the first row that accepts, else row 12: unimplemented (R57). -/
def classify (op : Byte) : OpClass :=
  match patternRows.find? (·.accepts op) with
  | some row => row.cls
  | none => .unimplemented

/-- The operation a 3-bit `alu` selector names (R60). -/
def aluInstr (selector : BitVec 3) (r : RegSel) : Instr :=
  match selector with
  | 0b000#3 => .add r
  | 0b001#3 => .adc r
  | 0b010#3 => .sub r
  | 0b011#3 => .sbb r
  | 0b100#3 => .ana r
  | 0b101#3 => .xra r
  | 0b110#3 => .ora r
  | _ => .cmp r

/-- What an opcode byte says on its own: a whole instruction, or one that still needs its immediate (R53). -/
inductive OpForm where
  | whole (i : Instr)
  | needsD8 (r : RegSel)
  | needsD16 (rp : RegPair)
  deriving DecidableEq, Repr

/-- The instruction, or the instruction short of its immediate, of an opcode byte (R57, R60, R61). -/
def opForm (op : Byte) : OpForm :=
  match classify op with
  | .carryFlag => .whole (if op.getLsbD 3 then .cmc else .stc)
  | .increment => .whole (.inr (dddOf op))
  | .decrement => .whole (.dcr (dddOf op))
  | .complement => .whole .cma
  | .halt => .whole .hlt
  | .move => .whole (.mov (dddOf op) (sssOf op))
  | .indirect => .whole (if op.getLsbD 3 then .ldax (prOf op) else .stax (prOf op))
  | .alu => .whole (aluInstr (op.extractLsb' 3 3) (sssOf op))
  | .loadPair => .needsD16 (rpOf op)
  | .moveImmediate => .needsD8 (dddOf op)
  | .noOperation => .whole .nop
  | .unimplemented => .whole (.unimpl op)

/-- How many bytes the instruction of an opcode byte has (R53). -/
def OpForm.length : OpForm → Nat
  | .whole _ => 1
  | .needsD8 _ => 2
  | .needsD16 _ => 3

/-- Two bytes as a 16-bit value: `(hi << 8) | lo` (10_state.md R18, 30_encoding.md R56). -/
def pairOf (hi lo : Byte) : Word := (hi.setWidth 16 <<< 8) ||| lo.setWidth 16

/-- `d16` from its two bytes in memory order: the first is the low one (R56). -/
def d16Of (first second : Byte) : Word := pairOf second first

/-! ## Decoding a list of bytes -/

/-- Why a list of bytes is no instruction: it ends too early. Every opcode byte itself decodes (R58). -/
inductive DecodeError where
  | noOpcode
  | noD8 (op : Byte)
  | noD16 (op : Byte)
  deriving DecidableEq, Repr

/-- The first instruction of a list of bytes, and the bytes after it. -/
def decode : List Byte → Except DecodeError (Instr × List Byte)
  | [] => .error .noOpcode
  | op :: rest =>
    match opForm op with
    | .whole i => .ok (i, rest)
    | .needsD8 r =>
      match rest with
      | d8 :: rest => .ok (.mvi r d8, rest)
      | [] => .error (.noD8 op)
    | .needsD16 rp =>
      match rest with
      | lo :: hi :: rest => .ok (.lxi rp (d16Of lo hi), rest)
      | _ => .error (.noD16 op)

/-- Byte `k` of a number whose bits count on from the least significant bit of the first byte. -/
def byteOfNat (w k : Nat) : Byte := BitVec.ofNat 8 (w >>> (8 * k))

/-- The three bytes an instruction of `nbits` bits `w` is laid out in, the bits above `nbits` zero. -/
def tableBytes (nbits w : Nat) : List Byte :=
  let v := w % 2 ^ nbits
  [byteOfNat v 0, byteOfNat v 1, byteOfNat v 2]

/-- The instruction the decoder reads from bits numbered as spec/opcode_table.json numbers them. -/
def decodeTableWord (nbits w : Nat) : Option Instr :=
  match decode (tableBytes nbits w) with
  | .ok (i, _) => some i
  | .error _ => none

/-! ## Encoding (R55) -/

/-- The ALU format: `10`, the selector, the operand slot (R55, R60). -/
def encodeAlu (selector : BitVec 3) (r : RegSel) : Byte := 0b10#2 ++ selector ++ r.code

/-- The bytes of an instruction, in memory order (R55, R56). -/
def encode : Instr → List Byte
  | .stc => [0b00110111]
  | .cmc => [0b00111111]
  | .inr r => [0b00#2 ++ r.code ++ 0b100#3]
  | .dcr r => [0b00#2 ++ r.code ++ 0b101#3]
  | .cma => [0b00101111]
  | .hlt => [0b01110110]
  | .mov dst src => [0b01#2 ++ dst.code ++ src.code]
  | .stax rp => [0b000#3 ++ rp.bit ++ 0b0010#4]
  | .ldax rp => [0b000#3 ++ rp.bit ++ 0b1010#4]
  | .add r => [encodeAlu 0b000 r]
  | .adc r => [encodeAlu 0b001 r]
  | .sub r => [encodeAlu 0b010 r]
  | .sbb r => [encodeAlu 0b011 r]
  | .ana r => [encodeAlu 0b100 r]
  | .xra r => [encodeAlu 0b101 r]
  | .ora r => [encodeAlu 0b110 r]
  | .cmp r => [encodeAlu 0b111 r]
  | .lxi rp d16 => [0b00#2 ++ rp.code ++ 0b0001#4, d16.extractLsb' 0 8, d16.extractLsb' 8 8]
  | .mvi r d8 => [0b00#2 ++ r.code ++ 0b110#3, d8]
  | .nop => [0b00000000]
  | .unimpl op => [op]

end Sys2Proof
end

