-- ==== Sys2Proof/Config.lean ====
section
/-! DEFINITION. The four implementation parameters of 00_scope.md R4: configuration, fixed for a run, not state
(10_state.md R34). Three have the spec's default; `SP_RESET` is open and has no body. -/

namespace Sys2Proof

/-- `AC_POLICY` (10_state.md R27): what the instructions do to the Auxiliary-Carry flag. -/
inductive AcPolicy where
  /-- No instruction writes `AC`. -/
  | held
  /-- `INR`, `DCR` and the eight ALU instructions write `AC` by the formulas of 93_implementation_defined.md U4. -/
  | i8080
  deriving DecidableEq, Repr

/-- `HLT_POLICY` (43_mov_hlt.md R76): what the opcode `0x76` does. -/
inductive HltPolicy where
  /-- The core advances `PC` and halts. -/
  | halt
  /-- The core only advances `PC`. -/
  | nop
  deriving DecidableEq, Repr

/-- `UNIMPL_POLICY` (48_nop_unimplemented.md R94): what the 92 unimplemented opcode values do. -/
inductive UnimplPolicy where
  /-- A one-byte no-operation. -/
  | nop1
  /-- The model gives the step no meaning. -/
  | refuse
  deriving DecidableEq, Repr

namespace Config

/-- DESIGN CHOICE (safe, log 1): `SP_RESET` is OPEN (decision D6), so it is a constant with no body that Lean can
see: what is proved holds whatever 16-bit value it is. -/
opaque spReset : Word

/-- DESIGN CHOICE (unsafe, log 2): the spec's default `AC_POLICY = held` (decision D4). -/
def acPolicy : AcPolicy := .held

/-- DESIGN CHOICE (unsafe, log 3): the spec's default `HLT_POLICY = halt` (decision D3). -/
def hltPolicy : HltPolicy := .halt

/-- DESIGN CHOICE (unsafe, log 4): the spec's default `UNIMPL_POLICY = nop1` (decision D2). -/
def unimplPolicy : UnimplPolicy := .nop1

end Config

end Sys2Proof
end

