-- ==== Sys2Proof/Machine/State.lean ====
section
/-! DEFINITION. The state of the block (10_state.md), its value after reset (R33), and why a step can stop. -/

namespace Sys2Proof.Machine

/-- `MEMORY` (10_state.md R29) as a list of (address, byte) pairs. Canonical form (`Memory.wf`): addresses strictly
rising and below 65,536, no entry equal to what an unlisted address reads as. -/
abbrev Memory := List Host.Cell

/-- The Processor State of 10_state.md: the registers of R15, `PC` (R22), `SP` (R23), the five flags (R24), `MEMORY`
(R29), and the two hidden items `HALTED` (R30) and `LASTOP` (R31). R28: there is nothing else. -/
@[ext]
structure State where
  a : Byte
  b : Byte
  c : Byte
  d : Byte
  e : Byte
  h : Byte
  l : Byte
  pc : Word
  sp : Word
  flagS : Bool
  flagZ : Bool
  flagAC : Bool
  flagP : Bool
  flagCF : Bool
  mem : Memory
  halted : Bool
  lastop : Option Byte
  deriving DecidableEq, Repr

/-- The faults of the machine: none. "A model's step therefore has no fault outcome" (60_exceptions.md R100), so the
type has no constructor. -/
inductive Fault where
  deriving DecidableEq, Repr

/-- Why the model (never the hardware, 00_scope.md R11) gives no next state. -/
inductive Refusal where
  /-- Raised by `exec` for an instruction that has no meaning yet. Safe: nothing is proved of it. -/
  | notModelled (mnemonic : String)
  /-- Raised by `unimplUnder .refuse` only, which is not the policy in force (R94). Safe: nothing is proved of it. -/
  | unimplementedOpcode (op : Byte)
  /-- Raised by `load`: the image is longer than memory (70_reset_and_hazards.md R122). Safe: no such load happens. -/
  | imageTooLong (length : Nat)
  /-- Raised by `load`: a step has been taken since reset (20_memory.md R51). Safe: no such load happens. -/
  | loadAfterFirstStep
  deriving DecidableEq, Repr

/-- The state after reset (10_state.md R33, 70_reset_and_hazards.md R120). `SP` is the open parameter (log 1); the
flags are 0 by the spec's decision D5 (log 5); `HALTED` and `LASTOP` by D17 (log 6). -/
def State.reset : State where
  a := 0
  b := 0
  c := 0
  d := 0
  e := 0
  h := 0
  l := 0
  pc := 0
  sp := Config.spReset
  flagS := false
  flagZ := false
  flagAC := false
  flagP := false
  flagCF := false
  mem := []
  halted := false
  lastop := none

/-! ## Field updates -/

def State.setA (s : State) (v : Byte) : State := { s with a := v }
def State.setB (s : State) (v : Byte) : State := { s with b := v }
def State.setC (s : State) (v : Byte) : State := { s with c := v }
def State.setD (s : State) (v : Byte) : State := { s with d := v }
def State.setE (s : State) (v : Byte) : State := { s with e := v }
def State.setH (s : State) (v : Byte) : State := { s with h := v }
def State.setL (s : State) (v : Byte) : State := { s with l := v }
def State.setPc (s : State) (v : Word) : State := { s with pc := v }
def State.setSp (s : State) (v : Word) : State := { s with sp := v }
def State.setS (s : State) (v : Bool) : State := { s with flagS := v }
def State.setZ (s : State) (v : Bool) : State := { s with flagZ := v }
def State.setAC (s : State) (v : Bool) : State := { s with flagAC := v }
def State.setP (s : State) (v : Bool) : State := { s with flagP := v }
def State.setCF (s : State) (v : Bool) : State := { s with flagCF := v }
def State.setMem (s : State) (v : Memory) : State := { s with mem := v }
def State.setHalted (s : State) (v : Bool) : State := { s with halted := v }
def State.setLastop (s : State) (v : Option Byte) : State := { s with lastop := v }

end Sys2Proof.Machine
end

