-- ==== Sys2Proof/Machine/Ops.lean ====
section
/-! DEFINITION. The named operations over memory and the program counter, and fetching an instruction. The spec describes
no exception entry and no return from one (60_exceptions.md R103, R104), so there is no operation for either. -/

namespace Sys2Proof.Machine

/-! ## Memory (20_memory.md) -/

/-- What a cell that nothing has written reads as: the reset contents of memory (10_state.md R33). -/
def Memory.unlisted : Byte := 0x00

/-- Canonical from address `lo` on. -/
def Memory.wfFrom (lo : Nat) : Memory → Bool
  | [] => true
  | (k, w) :: rest =>
    decide (lo ≤ k) && decide (k < 65536) && !(w == Memory.unlisted) && Memory.wfFrom (k + 1) rest

/-- The canonical form: addresses strictly rising and below 65,536, no entry equal to an unlisted cell. -/
def Memory.wf (m : Memory) : Bool := Memory.wfFrom 0 m

/-- The byte listed for an address, else what an unlisted one reads as; the list is sorted, so the search ends at the
first larger address. -/
def Memory.lookup (m : Memory) (k : Nat) : Byte :=
  match m with
  | [] => Memory.unlisted
  | (k', w) :: rest => if k < k' then Memory.unlisted else if k = k' then w else Memory.lookup rest k

/-- Lists a byte for an address in its place, or lists none where it equals an unlisted cell. -/
def Memory.put (m : Memory) (k : Nat) (v : Byte) : Memory :=
  match m with
  | [] => if v = Memory.unlisted then [] else [(k, v)]
  | (k', w) :: rest =>
    if k < k' then
      if v = Memory.unlisted then (k', w) :: rest else (k, v) :: (k', w) :: rest
    else if k = k' then
      if v = Memory.unlisted then rest else (k, v) :: rest
    else (k', w) :: Memory.put rest k v

/-- `MemRead(addr, 1)`: total, no side effect (R36). -/
def Memory.read (m : Memory) (addr : Word) : Byte := Memory.lookup m addr.toNat

/-- `MemWrite(addr, 1, v)`: total, every address is writable (R37). -/
def Memory.write (m : Memory) (addr : Word) (v : Byte) : Memory := Memory.put m addr.toNat v

/-- Writes bytes to ascending addresses modulo 65536 (R38), the first at `addr`. -/
def Memory.writeBytes (m : Memory) (addr : Word) (bytes : List Byte) : Memory :=
  match bytes with
  | [] => m
  | v :: rest => Memory.writeBytes (Memory.write m addr v) (addr + 1) rest

/-- `MemRead` of the state's memory. -/
def State.read (s : State) (addr : Word) : Byte := Memory.read s.mem addr

/-- `MemWrite` to the state's memory. -/
def State.write (s : State) (addr : Word) (v : Byte) : State := s.setMem (Memory.write s.mem addr v)

/-! ## The program counter and the fetch -/

/-- `PC <- (PC + n) mod 65536` (10_state.md R22, 20_memory.md R38). -/
def State.advance (s : State) (n : Nat) : State := s.setPc (s.pc + BitVec.ofNat 16 n)

/-- The opcode byte at `PC`. -/
def State.opcode (s : State) : Byte := s.read s.pc

/-- Address of the operand byte `k` after the opcode (00_scope.md R12). -/
def State.operandAddr (s : State) (k : Nat) : Word := s.pc + BitVec.ofNat 16 k

/-- The instruction at `PC`: the opcode byte, then only the operand bytes its length asks for (30_encoding.md R53,
R56; 20_memory.md R41). -/
def State.fetch (s : State) : Instr :=
  match opForm s.opcode with
  | .whole i => i
  | .needsD8 r => .mvi r (s.read (s.operandAddr 1))
  | .needsD16 rp => .lxi rp (d16Of (s.read (s.operandAddr 1)) (s.read (s.operandAddr 2)))

/-- `LASTOP` becomes the opcode byte the step fetched (10_state.md R31). -/
def State.noteOpcode (s : State) : State := s.setLastop (some s.opcode)

/-- The step of a halted core: nothing changes (43_mov_hlt.md R76). -/
def State.haltedStep (s : State) : State := s

/-- The bytes laid at `PC` of a core that is running. -/
def State.placeAtPc (s : State) (bytes : List Byte) : State :=
  (s.setMem (Memory.writeBytes s.mem s.pc bytes)).setHalted false

end Sys2Proof.Machine
end

