-- ==== Sys2Proof/Machine/Flags.lean ====
section
/-! DEFINITION. Every flag computation: `parity8` and `SetZSP` (10_state.md R26), and the Auxiliary-Carry values that
`AC_POLICY` chooses between (R27, 93_implementation_defined.md U4). -/

namespace Sys2Proof.Machine

/-- 1 when the count of 1 bits is even: the complement of the exclusive OR of the bits (10_state.md R26). The
definition stands for `0x0F` too (conflict C11, log 24). -/
def parity8 (v : Byte) : Bool :=
  let bit (i : Nat) : BitVec 1 := v.extractLsb' i 1
  (~~~(bit 7 ^^^ bit 6 ^^^ bit 5 ^^^ bit 4 ^^^ bit 3 ^^^ bit 2 ^^^ bit 1 ^^^ bit 0)) == 1

/-- `SetZSP` (10_state.md R26). -/
def State.setZSP (s : State) (v : Byte) : State :=
  ((s.setZ (v == 0x00)).setS (v.getLsbD 7)).setP (parity8 v)

/-! ## Auxiliary-Carry -/

/-- The new `AC`: the old one under `held`, the 8080's under `i8080` (10_state.md R27). -/
def acUnder (policy : AcPolicy) (new old : Bool) : Bool :=
  match policy with
  | .held => old
  | .i8080 => new

/-- `AC` as the policy in force has it after an instruction whose 8080 value is `new` (10_state.md R27, log 2). -/
def State.noteAC (s : State) (new : Bool) : State := s.setAC (acUnder Config.acPolicy new s.flagAC)

/-- The low four bits as a number. -/
def lowNibble (v : Byte) : Nat := v.toNat % 16

/-- PRESUMED (log 23). `ADD`, `ADC` under `i8080`: carry out of bit 3 (93_implementation_defined.md U4). -/
def acOfAdd (a v : Byte) (carryIn : Bool) : Bool := decide (lowNibble a + lowNibble v + carryIn.toNat > 0x0F)

/-- PRESUMED (log 23). `SUB`, `SBB`, `CMP` under `i8080`: carry out of bit 3 of `a + ~v + (1 - c)` (U4). -/
def acOfSub (a v : Byte) (borrowIn : Bool) : Bool :=
  decide (lowNibble a + lowNibble (~~~v) + (1 - borrowIn.toNat) > 0x0F)

/-- PRESUMED (log 23). `ANA` under `i8080`: bit 3 of `a | v` (U4). -/
def acOfAnd (a v : Byte) : Bool := (a ||| v).getLsbD 3

/-- PRESUMED (log 23). `INR` under `i8080` (U4). -/
def acOfInr (res : Byte) : Bool := lowNibble res == 0x00

/-- PRESUMED (log 23). `DCR` under `i8080` (U4). -/
def acOfDcr (res : Byte) : Bool := !(lowNibble res == 0x0F)

end Sys2Proof.Machine
end

