-- ==== Sys2Proof/Machine/Operands.lean ====
section
/-! DEFINITION. Every operand form of 30_encoding.md R69: slots (`ReadOp`, `WriteOp`), register pairs. -/

namespace Sys2Proof.Machine

/-- The pair `BC`, first-named register high (10_state.md R18, decision D12). -/
def State.bc (s : State) : Word := pairOf s.b s.c

/-- The pair `DE` (10_state.md R18, decision D12). -/
def State.de (s : State) : Word := pairOf s.d s.e

/-- The pair `HL` (10_state.md R18, R19). -/
def State.hl (s : State) : Word := pairOf s.h s.l

/-- The high byte of a pair value (10_state.md R18). -/
def highByte (v : Word) : Byte := v.extractLsb' 8 8

/-- The low byte of a pair value (10_state.md R18). -/
def lowByte (v : Word) : Byte := v.extractLsb' 0 8

/-- `ReadOp` (10_state.md R20); slot `m` is one memory read at `HL`. -/
def State.readOp (s : State) : RegSel → Byte
  | .b => s.b
  | .c => s.c
  | .d => s.d
  | .e => s.e
  | .h => s.h
  | .l => s.l
  | .m => s.read s.hl
  | .a => s.a

/-- `WriteOp` (10_state.md R21); slot `m` is one memory write at `HL` and changes no register. -/
def State.writeOp (s : State) (r : RegSel) (v : Byte) : State :=
  match r with
  | .b => s.setB v
  | .c => s.setC v
  | .d => s.setD v
  | .e => s.setE v
  | .h => s.setH v
  | .l => s.setL v
  | .m => s.write s.hl v
  | .a => s.setA v

/-- The address `LDAX` and `STAX` use (44_ldax_stax.md R77, R78). -/
def State.indirectAddr (s : State) : IndirectPair → Word
  | .bc => s.bc
  | .de => s.de

/-- Writing a 16-bit value to a pair or to `SP` (10_state.md R18; 46_lxi.md R91, decision D7). -/
def State.writePair (s : State) (rp : RegPair) (v : Word) : State :=
  match rp with
  | .bc => (s.setB (highByte v)).setC (lowByte v)
  | .de => (s.setD (highByte v)).setE (lowByte v)
  | .hl => (s.setH (highByte v)).setL (lowByte v)
  | .sp => s.setSp v

end Sys2Proof.Machine
end

