-- ==== Sys2Proof/Machine/Alu.lean ====
section
/-! DEFINITION. The accumulator arithmetic-logic group (45_alu.md): one shared operation (R79, R80), one meaning for each
of the eight instructions (R81 to R88). -/

namespace Sys2Proof.Machine

/-- The eight operations of the group (30_encoding.md R60). -/
inductive AluOp where
  | add | adc | sub | sbb | ana | xra | ora | cmp
  deriving DecidableEq, Repr

/-- An 8-bit value as 9 bits, zero above (00_scope.md R9). -/
def zext9 (v : Byte) : BitVec 9 := v.setWidth 9

/-- `CF` as a 9-bit number. -/
def carry9 (cf : Bool) : BitVec 9 := (BitVec.ofBool cf).setWidth 9

/-- The 9-bit intermediate `t` (R80); 9-bit subtraction is modulo 512 (decision D16), and the logical operations have
bit 8 clear (decision D15). -/
def aluT (op : AluOp) (a v : Byte) (cf : Bool) : BitVec 9 :=
  match op with
  | .add => zext9 a + zext9 v
  | .adc => zext9 a + zext9 v + carry9 cf
  | .sub => zext9 a - zext9 v
  | .sbb => zext9 a - zext9 v - carry9 cf
  | .ana => zext9 (a &&& v)
  | .xra => zext9 (a ^^^ v)
  | .ora => zext9 (a ||| v)
  | .cmp => zext9 a - zext9 v

/-- `AC` of the operation under `AC_POLICY = i8080` (93_implementation_defined.md U4, log 23). -/
def aluAC (op : AluOp) (a v : Byte) (cf : Bool) : Bool :=
  match op with
  | .add => acOfAdd a v false
  | .adc => acOfAdd a v cf
  | .sub => acOfSub a v false
  | .sbb => acOfSub a v cf
  | .ana => acOfAnd a v
  | .xra => false
  | .ora => false
  | .cmp => acOfSub a v false

/-- Whether the result goes to `A`: "compare does not store" (R80). -/
def AluOp.stores : AluOp → Bool
  | .add | .adc | .sub | .sbb | .ana | .xra | .ora => true
  | .cmp => false

/-- `A` after the operation, given its 8-bit result. -/
def State.storeResult (s : State) (op : AluOp) (res : Byte) : State :=
  match op.stores with
  | true => s.setA res
  | false => s

/-- What the eight instructions share (R79, R80): operand, old `A` and old `CF` are read before anything is written;
`CF` from `t[8]`; `Z`, `S`, `P` from `t[7:0]`; `A` unless it is a compare; `PC` by 1. -/
def State.aluStep (s : State) (op : AluOp) (r : RegSel) : State :=
  let v := s.readOp r
  let t := aluT op s.a v s.flagCF
  let res : Byte := t.setWidth 8
  ((((s.setCF (t.getLsbD 8)).setZSP res).noteAC (aluAC op s.a v s.flagCF)).storeResult op res).advance 1

/-- `ADD r` (R81). -/
def execAdd (r : RegSel) (s : State) : Host.Outcome State Fault Refusal := .next (s.aluStep .add r)

/-- `ADC r` (R82). -/
def execAdc (r : RegSel) (s : State) : Host.Outcome State Fault Refusal := .next (s.aluStep .adc r)

/-- `SUB r` (R83). -/
def execSub (r : RegSel) (s : State) : Host.Outcome State Fault Refusal := .next (s.aluStep .sub r)

/-- `SBB r` (R84). -/
def execSbb (r : RegSel) (s : State) : Host.Outcome State Fault Refusal := .next (s.aluStep .sbb r)

/-- `ANA r` (R85). -/
def execAna (r : RegSel) (s : State) : Host.Outcome State Fault Refusal := .next (s.aluStep .ana r)

/-- `XRA r` (R86). -/
def execXra (r : RegSel) (s : State) : Host.Outcome State Fault Refusal := .next (s.aluStep .xra r)

/-- `ORA r` (R87). -/
def execOra (r : RegSel) (s : State) : Host.Outcome State Fault Refusal := .next (s.aluStep .ora r)

/-- `CMP r` (R88). -/
def execCmp (r : RegSel) (s : State) : Host.Outcome State Fault Refusal := .next (s.aluStep .cmp r)

end Sys2Proof.Machine
end

