-- ==== Sys2Proof/Machine/CarryFlag.lean ====
section
/-! DEFINITION. The carry-flag group: `STC`, `CMC` (40_carry_flag.md). -/

namespace Sys2Proof.Machine

/-- `STC` (R70). -/
def execStc (s : State) : Host.Outcome State Fault Refusal := .next ((s.setCF true).advance 1)

/-- `CMC` (R71). -/
def execCmc (s : State) : Host.Outcome State Fault Refusal := .next ((s.setCF (!s.flagCF)).advance 1)

end Sys2Proof.Machine
end

