-- ==== Sys2Proof/Machine/Complement.lean ====
section
/-! DEFINITION. Accumulator complement: `CMA` (42_cma.md). -/

namespace Sys2Proof.Machine

/-- `CMA` (R74): no flag is written. -/
def execCma (s : State) : Host.Outcome State Fault Refusal := .next ((s.setA (~~~s.a)).advance 1)

end Sys2Proof.Machine
end

