-- ==== Sys2Proof/Machine/Immediate.lean ====
section
/-! DEFINITION. The two instructions with an immediate: `LXI` (46_lxi.md), `MVI` (47_mvi.md). -/

namespace Sys2Proof.Machine

/-- `LXI rp,d16` (R91). -/
def execLxi (rp : RegPair) (d16 : Word) (s : State) : Host.Outcome State Fault Refusal :=
  .next ((s.writePair rp d16).advance 3)

/-- `MVI r,d8` (R92). -/
def execMvi (r : RegSel) (d8 : Byte) (s : State) : Host.Outcome State Fault Refusal :=
  .next ((s.writeOp r d8).advance 2)

end Sys2Proof.Machine
end

