-- ==== Sys2Proof/Machine/IncDec.lean ====
section
/-! DEFINITION. Increment and decrement of a slot: `INR`, `DCR` (41_inr_dcr.md). `CF` is not written. -/

namespace Sys2Proof.Machine

/-- What `INR` and `DCR` share: the result goes to the slot and to `Z`, `S`, `P`; `PC` advances by 1. -/
def State.replaceSlot (s : State) (r : RegSel) (res : Byte) (ac : Bool) : State :=
  (((s.writeOp r res).setZSP res).noteAC ac).advance 1

/-- `INR r` (R72). -/
def execInr (r : RegSel) (s : State) : Host.Outcome State Fault Refusal :=
  let res := s.readOp r + 1
  .next (s.replaceSlot r res (acOfInr res))

/-- `DCR r` (R73): adding 255 modulo 256. -/
def execDcr (r : RegSel) (s : State) : Host.Outcome State Fault Refusal :=
  let res := s.readOp r + 255
  .next (s.replaceSlot r res (acOfDcr res))

end Sys2Proof.Machine
end

