-- ==== Sys2Proof/Machine/Indirect.lean ====
section
/-! DEFINITION. Load and store accumulator indirect: `LDAX`, `STAX` (44_ldax_stax.md). -/

namespace Sys2Proof.Machine

/-- `LDAX rp` (R77). -/
def execLdax (rp : IndirectPair) (s : State) : Host.Outcome State Fault Refusal :=
  .next ((s.setA (s.read (s.indirectAddr rp))).advance 1)

/-- `STAX rp` (R78). -/
def execStax (rp : IndirectPair) (s : State) : Host.Outcome State Fault Refusal :=
  .next ((s.write (s.indirectAddr rp) s.a).advance 1)

end Sys2Proof.Machine
end

