-- ==== Sys2Proof/Machine/MoveHalt.lean ====
section
/-! DEFINITION. Move and halt: `MOV`, `HLT` (43_mov_hlt.md). -/

namespace Sys2Proof.Machine

/-- `MOV r1,r2` (R75): the source is read before the destination is written. -/
def execMov (dst src : RegSel) (s : State) : Host.Outcome State Fault Refusal :=
  .next ((s.writeOp dst (s.readOp src)).advance 1)

/-- `HLT` under each `HLT_POLICY` (R76). -/
def State.hltUnder (s : State) (policy : HltPolicy) : State :=
  match policy with
  | .halt => (s.advance 1).setHalted true
  | .nop => s.advance 1

/-- `HLT` (R76) under the policy in force (log 3). -/
def execHlt (s : State) : Host.Outcome State Fault Refusal := .next (s.hltUnder Config.hltPolicy)

end Sys2Proof.Machine
end

