-- ==== Sys2Proof/Machine/NoOp.lean ====
section
/-! DEFINITION. `NOP` and the 92 unimplemented opcode values (48_nop_unimplemented.md). -/

namespace Sys2Proof.Machine

/-- `NOP` (R93). -/
def execNop (s : State) : Host.Outcome State Fault Refusal := .next (s.advance 1)

/-- An unimplemented opcode under each `UNIMPL_POLICY` (R94). -/
def unimplUnder (policy : UnimplPolicy) (op : Byte) (s : State) : Host.Outcome State Fault Refusal :=
  match policy with
  | .nop1 => .next (s.advance 1)
  | .refuse => .refused (.unimplementedOpcode op)

/-- An unimplemented opcode (R94) under the policy in force (log 4): a one-byte no-operation. -/
def execUnimpl (op : Byte) (s : State) : Host.Outcome State Fault Refusal := unimplUnder Config.unimplPolicy op s

end Sys2Proof.Machine
end

