-- ==== Sys2Proof/Machine/Dispatch.lean ====
section
/-! DEFINITION. One arm for each instruction. -/

namespace Sys2Proof.Machine

def exec (i : Instr) (s : State) : Host.Outcome State Fault Refusal :=
  match i with
  | .stc => Sys2Proof.Machine.execStc s
  | .cmc => Sys2Proof.Machine.execCmc s
  | .inr r => Sys2Proof.Machine.execInr r s
  | .dcr r => Sys2Proof.Machine.execDcr r s
  | .cma => Sys2Proof.Machine.execCma s
  | .hlt => Sys2Proof.Machine.execHlt s
  | .mov dst src => Sys2Proof.Machine.execMov dst src s
  | .stax rp => Sys2Proof.Machine.execStax rp s
  | .ldax rp => Sys2Proof.Machine.execLdax rp s
  | .add r => Sys2Proof.Machine.execAdd r s
  | .adc r => Sys2Proof.Machine.execAdc r s
  | .sub r => Sys2Proof.Machine.execSub r s
  | .sbb r => Sys2Proof.Machine.execSbb r s
  | .ana r => Sys2Proof.Machine.execAna r s
  | .xra r => Sys2Proof.Machine.execXra r s
  | .ora r => Sys2Proof.Machine.execOra r s
  | .cmp r => Sys2Proof.Machine.execCmp r s
  | .lxi rp d16 => Sys2Proof.Machine.execLxi rp d16 s
  | .mvi r d8 => Sys2Proof.Machine.execMvi r d8 s
  | .nop => Sys2Proof.Machine.execNop s
  | .unimpl op => Sys2Proof.Machine.execUnimpl op s

end Sys2Proof.Machine
end

