-- ==== Sys2Proof/Machine/Step.lean ====
section
/-! DEFINITION. One step of the core (00_scope.md R6; 43_mov_hlt.md R76 for a halted core). -/

namespace Sys2Proof.Machine

/-- A halted core's step changes nothing; otherwise fetch, note the opcode in `LASTOP`, execute. The meanings advance
`PC` themselves, as the last action of each (00_scope.md section 7). -/
def step (s : State) : Host.Outcome State Fault Refusal :=
  match s.halted with
  | true => .next s.haltedStep
  | false => exec s.fetch s.noteOpcode

/-- `s` with the instruction of `nbits` bits `w` (numbered as spec/opcode_table.json numbers them) at `PC`, running. -/
def State.withFetchWord (s : State) (nbits w : Nat) : State := s.placeAtPc (tableBytes nbits w)

end Sys2Proof.Machine
end

