-- ==== Sys2Proof/Machine/Access.lean ====
section
/-! DEFINITION. The memory accesses of a step and their order (20_memory.md R41, R42): a list computed from the state
the step starts in. Statements about what memory a step reads and writes are made with it. -/

namespace Sys2Proof.Machine

/-- One memory access, always of one byte (R41). -/
inductive Access where
  | fetch (addr : Word)
  | read (addr : Word)
  | write (addr : Word)
  deriving DecidableEq, Repr

/-- The address a slot stands for: `HL` for `m`, none for a register (10_state.md R19). -/
def State.slotAddr (s : State) : RegSel → Option Word
  | .m => some s.hl
  | .b | .c | .d | .e | .h | .l | .a => none

/-- The address of the data read of an instruction, if it has one (R41). -/
def State.dataRead (s : State) : Instr → Option Word
  | .stc | .cmc | .cma | .hlt | .nop => none
  | .inr r | .dcr r => s.slotAddr r
  | .mov _ src => s.slotAddr src
  | .stax _ => none
  | .ldax rp => some (s.indirectAddr rp)
  | .add r | .adc r | .sub r | .sbb r | .ana r | .xra r | .ora r | .cmp r => s.slotAddr r
  | .lxi _ _ | .mvi _ _ => none
  | .unimpl _ => none

/-- The address an instruction stores to, if it stores (R41). -/
def State.dataWrite (s : State) : Instr → Option Word
  | .stc | .cmc | .cma | .hlt | .nop => none
  | .inr r | .dcr r => s.slotAddr r
  | .mov dst _ => s.slotAddr dst
  | .stax rp => some (s.indirectAddr rp)
  | .ldax _ => none
  | .add _ | .adc _ | .sub _ | .sbb _ | .ana _ | .xra _ | .ora _ | .cmp _ => none
  | .lxi _ _ => none
  | .mvi r _ => s.slotAddr r
  | .unimpl _ => none

/-- The bytes the fetch reads: the opcode, then the operand bytes in ascending order (R41, R42). -/
def State.fetchAddrs (s : State) : List Word :=
  (List.range (opForm s.opcode).length).map s.operandAddr

/-- The accesses of the next step, in order: fetch, data read, data write; none for a halted core (R41, R42). -/
def State.accesses (s : State) : List Access :=
  match s.halted with
  | true => []
  | false =>
    s.fetchAddrs.map .fetch ++ (s.dataRead s.fetch).toList.map .read ++ (s.dataWrite s.fetch).toList.map .write

end Sys2Proof.Machine
end

