-- ==== Sys2Proof/Machine/Boundary.lean ====
section
/-! DEFINITION. The host's actions between steps (00_scope.md R7): reset, load, observe. The step is `step`. -/

namespace Sys2Proof.Machine

/-- Reset, at any time between steps: the state of R33 whatever the state before (70_reset_and_hazards.md R120,
decision D24, log 14). -/
def resetAction (_ : State) : State := State.reset

/-- A load is allowed between reset and the first step only (20_memory.md R51). DEDUCED (log 13): no step has been taken
since reset exactly when `LASTOP` is still `none` (10_state.md R31). -/
def loadAllowed (s : State) : Bool := s.lastop.isNone

/-- `Load(buf, len)`: the bytes from address 0 on, no other state changed; a longer image than memory is refused
(70_reset_and_hazards.md R122, decision D20). -/
def load (buf : List Byte) (s : State) : Host.Outcome State Fault Refusal :=
  if loadAllowed s = false then .refused .loadAfterFirstStep
  else if 65536 < buf.length then .refused (.imageTooLong buf.length)
  else .next (s.setMem (Memory.writeBytes s.mem 0 buf))

/-- What the diagnostic dump shows (60_exceptions.md R110); its text is not specified (log 21). -/
structure Observation where
  a : Byte
  b : Byte
  c : Byte
  d : Byte
  e : Byte
  h : Byte
  l : Byte
  flagS : Bool
  flagZ : Bool
  flagAC : Bool
  flagP : Bool
  flagCF : Bool
  pc : Word
  sp : Word
  lastop : Option Byte
  nextop : Byte
  deriving DecidableEq, Repr

/-- `Observe()`: read only (60_exceptions.md R110). -/
def observe (s : State) : Observation where
  a := s.a
  b := s.b
  c := s.c
  d := s.d
  e := s.e
  h := s.h
  l := s.l
  flagS := s.flagS
  flagZ := s.flagZ
  flagAC := s.flagAC
  flagP := s.flagP
  flagCF := s.flagCF
  pc := s.pc
  sp := s.sp
  lastop := s.lastop
  nextop := s.read s.pc

end Sys2Proof.Machine
end

