-- ==== Sys2Proof/Safety.lean ====
section
/-! DEFINITION. The terms in which claims speak of states, runs and instructions. Each is written from the spec's tables
on its own, not from the meanings. -/

namespace Sys2Proof.Machine

/-- The invariant of every state the core reaches: memory is in its canonical form, and a halted core is halted by the
opcode `0x76`, which `LASTOP` still shows (43_mov_hlt.md R76, 10_state.md R30, R31). The canonical form is the model's own (log 15);
`HALTED` and `LASTOP` are decision D17 (log 6). -/
structure State.Inv (s : State) : Prop where
  canonical : s.mem.wf = true
  halt_opcode : s.halted = true → s.lastop = some 0x76

/-- A run of `k` steps that reaches `t`: no step of it was refused (70_reset_and_hazards.md R123). -/
def RunsTo (k : Nat) (s t : State) : Prop := Host.Core.run Sys2Proof.core k s = .next t

/-- The five flags by name (10_state.md R24). -/
inductive Flag where
  | s | z | ac | p | cf
  deriving DecidableEq, Repr

/-- The value of a flag. -/
def State.flag (st : State) : Flag → Bool
  | .s => st.flagS
  | .z => st.flagZ
  | .ac => st.flagAC
  | .p => st.flagP
  | .cf => st.flagCF

/-- The number of 1 bits of a byte. -/
def onesCount (v : Byte) : Nat := ((List.range 8).filter (v.getLsbD ·)).length

/-- Whether the number of 1 bits is even, the meaning of the Parity flag (10_state.md R26). -/
def evenOnes (v : Byte) : Bool := decide (onesCount v % 2 = 0)

/-- Two bytes as the number `hi * 256 + lo`, in 16 bits. -/
def wordOf (hi lo : Byte) : Word := BitVec.ofNat 16 (hi.toNat * 256 + lo.toNat)

/-- Instruction lengths by opcode byte, the table of 30_encoding.md R53. -/
def opcodeLength (op : Byte) : Nat :=
  if op ∈ ([0x01, 0x11, 0x21, 0x31] : List Byte) then 3
  else if op ∈ ([0x06, 0x0E, 0x16, 0x1E, 0x26, 0x2E, 0x36, 0x3E] : List Byte) then 2
  else 1

/-- Whether `LXI` of a pair writes a register slot (10_state.md R17, 30_encoding.md R59). -/
def pairWritesReg (rp : RegPair) (r : RegSel) : Bool :=
  match rp with
  | .bc => r == .b || r == .c
  | .de => r == .d || r == .e
  | .hl => r == .h || r == .l
  | .sp => false

/-- "Written by" of 10_state.md R17: which register slots an instruction writes (slot `m` is no register). -/
def writesReg (i : Instr) (r : RegSel) : Bool :=
  match i with
  | .cma | .ldax _ => r == .a
  | .add _ | .adc _ | .sub _ | .sbb _ | .ana _ | .xra _ | .ora _ => r == .a
  | .mov dst _ => r == dst
  | .inr dst | .dcr dst | .mvi dst _ => r == dst
  | .lxi rp _ => pairWritesReg rp r
  | .stc | .cmc | .hlt | .stax _ | .cmp _ | .nop | .unimpl _ => false

/-- The table of 10_state.md R25: which flags an instruction writes under the default parameters. -/
def writesFlag (i : Instr) (f : Flag) : Bool :=
  match i with
  | .stc | .cmc => f == .cf
  | .inr _ | .dcr _ => f == .z || f == .s || f == .p
  | .add _ | .adc _ | .sub _ | .sbb _ | .ana _ | .xra _ | .ora _ | .cmp _ => !(f == .ac)
  | .cma | .mov _ _ | .mvi _ _ | .lxi _ _ | .ldax _ | .stax _ | .nop | .hlt | .unimpl _ => false

/-- What a program can observe of a state (70_reset_and_hazards.md R130): not `Z`, `S`, `P`, `AC`, `SP`, and not the
hidden `LASTOP`. -/
structure Observable where
  a : Byte
  b : Byte
  c : Byte
  d : Byte
  e : Byte
  h : Byte
  l : Byte
  pc : Word
  flagCF : Bool
  mem : Memory
  halted : Bool
  deriving DecidableEq, Repr

/-- The observable part of a state. -/
def State.observable (s : State) : Observable :=
  ⟨s.a, s.b, s.c, s.d, s.e, s.h, s.l, s.pc, s.flagCF, s.mem, s.halted⟩

end Sys2Proof.Machine
end

