-- ==== Sys2Proof/Certificates/Slice0/Obligations.lean ====
section
/-! DEFINITION. The statements for the provers, from the numbered rules of spec/. A docstring that names a log entry says
that a clause rests on the model's choice (or on a decision the spec marks as its own). -/

open Sys2Proof Sys2Proof.Machine

/-! ## Reset, load, observe -/

/-- 10_state.md R33, 70_reset_and_hazards.md R120. The flags (log 5), `SP` (log 1), `HALTED` and `LASTOP` (log 6) and
reset as an action from any state (log 14) are choices. -/
def Obligations.ResetFromAnyStateLeavesRuleValues : Prop :=
  Sys2Proof.core.reset = State.reset ∧
  ∀ before : State,
    let s := resetAction before
    s = State.reset ∧
    s.a = 0x00 ∧ s.b = 0x00 ∧ s.c = 0x00 ∧ s.d = 0x00 ∧ s.e = 0x00 ∧ s.h = 0x00 ∧ s.l = 0x00 ∧
    s.pc = 0x0000 ∧ s.sp = Config.spReset ∧
    s.flagS = false ∧ s.flagZ = false ∧ s.flagAC = false ∧ s.flagP = false ∧ s.flagCF = false ∧
    s.halted = false ∧ s.lastop = none ∧ ∀ addr : Word, s.read addr = 0x00

/-- The invariant holds right after reset (10_state.md R33). The canonical form of memory is the model's own (log 15);
`HALTED` = 0 and `LASTOP` after reset are decision D17 (log 6). -/
def Obligations.ResetMeetsInv : Prop := State.reset.Inv

/-- 70_reset_and_hazards.md R122, 20_memory.md R51: when a load answers, what it leaves, when it is refused. The refusals
are choices (decision D20, log 13). What the loaded cells hold is `MemReadReturnsLastWritten`. -/
def Obligations.LoadChangesOnlyMemory : Prop :=
  ∀ (buf : List Byte) (s : State),
    (s.lastop = none → buf.length ≤ 65536 → ∃ t, load buf s = .next t ∧ { t with mem := s.mem } = s) ∧
    (s.lastop = none → 65536 < buf.length → load buf s = .refused (.imageTooLong buf.length)) ∧
    (s.lastop ≠ none → load buf s = .refused .loadAfterFirstStep)

/-- 60_exceptions.md R110: the observation tuple. -/
def Obligations.ObserveIsTheDumpTuple : Prop :=
  ∀ s : State,
    observe s =
      ⟨s.a, s.b, s.c, s.d, s.e, s.h, s.l, s.flagS, s.flagZ, s.flagAC, s.flagP, s.flagCF, s.pc, s.sp, s.lastop,
        s.read s.pc⟩

/-! ## Memory and operands -/

/-- 20_memory.md R36: a read returns the last value written by `MemWrite` or by the loader, or the reset value. -/
def Obligations.MemReadReturnsLastWritten : Prop :=
  (∀ addr : Word, State.reset.read addr = 0x00) ∧
  (∀ (s : State) (addr other : Word) (v : Byte), s.mem.wf = true →
    (s.write addr v).read other = if other = addr then v else s.read other) ∧
  (∀ (buf : List Byte) (s t : State), s.mem.wf = true → load buf s = .next t →
    ∀ addr : Word, t.read addr = buf.getD addr.toNat (s.read addr))

/-- The canonical form is one form: memories that read alike everywhere are equal data (log 15). -/
def Obligations.CanonicalMemoriesReadingAlikeAreEqual : Prop :=
  ∀ m m' : Memory, m.wf = true → m'.wf = true → (∀ addr : Word, Memory.read m addr = Memory.read m' addr) → m = m'

/-- 10_state.md R20: `ReadOp` of each register-select code; code 6 alone makes a memory access. -/
def Obligations.ReadOpSelectsSlotByCode : Prop :=
  ∀ s : State,
    s.readOp (.ofCode 0) = s.b ∧ s.readOp (.ofCode 1) = s.c ∧ s.readOp (.ofCode 2) = s.d ∧
    s.readOp (.ofCode 3) = s.e ∧ s.readOp (.ofCode 4) = s.h ∧ s.readOp (.ofCode 5) = s.l ∧
    s.readOp (.ofCode 7) = s.a ∧
    s.readOp (.ofCode 6) = s.read (wordOf s.h s.l) ∧
    s.slotAddr (.ofCode 6) = some (wordOf s.h s.l) ∧ ∀ code : BitVec 3, code ≠ 6 → s.slotAddr (.ofCode code) = none

/-- 10_state.md R21: `WriteOp` of each register-select code; everything else is as before, and code 6 alone makes a memory
access. -/
def Obligations.WriteOpWritesOnlySlotByCode : Prop :=
  ∀ (s : State) (v : Byte),
    s.writeOp (.ofCode 0) v = { s with b := v } ∧ s.writeOp (.ofCode 1) v = { s with c := v } ∧
    s.writeOp (.ofCode 2) v = { s with d := v } ∧ s.writeOp (.ofCode 3) v = { s with e := v } ∧
    s.writeOp (.ofCode 4) v = { s with h := v } ∧ s.writeOp (.ofCode 5) v = { s with l := v } ∧
    s.writeOp (.ofCode 7) v = { s with a := v } ∧
    s.writeOp (.ofCode 6) v = { s with mem := Memory.write s.mem (wordOf s.h s.l) v } ∧
    s.slotAddr (.ofCode 6) = some (wordOf s.h s.l) ∧ ∀ code : BitVec 3, code ≠ 6 → s.slotAddr (.ofCode code) = none

/-- 10_state.md R18: pair values and pair writes. `BC` and `DE` as addresses are decision D12 (log 12), `SP` as the
fourth target decision D7 (log 8). -/
def Obligations.PairsPutFirstRegisterHigh : Prop :=
  ∀ (s : State) (v : Word),
    s.bc.toNat = s.b.toNat * 256 + s.c.toNat ∧
    s.de.toNat = s.d.toNat * 256 + s.e.toNat ∧
    s.hl.toNat = s.h.toNat * 256 + s.l.toNat ∧
    s.indirectAddr .bc = s.bc ∧ s.indirectAddr .de = s.de ∧
    (s.writePair .bc v).bc = v ∧ (s.writePair .de v).de = v ∧ (s.writePair .hl v).hl = v ∧
    s.writePair .sp v = { s with sp := v }

/-- 10_state.md R26: the flag helpers. -/
def Obligations.SetZSPFollowsResult : Prop :=
  (∀ v : Byte, parity8 v = evenOnes v) ∧
  ∀ (s : State) (v : Byte),
    s.setZSP v = { s with flagZ := decide (v.toNat = 0), flagS := decide (128 ≤ v.toNat), flagP := evenOnes v }

/-! ## One statement for each instruction -/

/-- 40_carry_flag.md R70. The opcode bit is decision D8 (log 7). -/
def Obligations.StcSetsCarryOnly : Prop :=
  (∀ rest : List Byte, decode (0b0011_0111 :: rest) = .ok (.stc, rest)) ∧
  ∀ s : State, exec .stc s = .next { s with flagCF := true, pc := s.pc + 1 }

/-- 40_carry_flag.md R71. The opcode bit is decision D8 (log 7). -/
def Obligations.CmcComplementsCarryOnly : Prop :=
  (∀ rest : List Byte, decode (0b0011_1111 :: rest) = .ok (.cmc, rest)) ∧
  ∀ s : State, exec .cmc s = .next { s with flagCF := !s.flagCF, pc := s.pc + 1 }

/-- 41_inr_dcr.md R72: the slot, `Z`, `S`, `P` from the result, `CF` kept, `AC` as `AC_POLICY` says. -/
def Obligations.InrAddsOneAndSetsZSP : Prop :=
  ∀ r : RegSel,
    (∀ rest : List Byte, decode ((0b00#2 ++ r.code ++ 0b100#3 : Byte) :: rest) = .ok (.inr r, rest)) ∧
    ∀ s : State,
      let res : Byte := BitVec.ofNat 8 (((s.readOp r).toNat + 1) % 256)
      exec (.inr r) s =
        .next
          { s.writeOp r res with
            flagZ := decide (res.toNat = 0)
            flagS := decide (128 ≤ res.toNat)
            flagP := evenOnes res
            flagCF := s.flagCF
            flagAC := acUnder Config.acPolicy (acOfInr res) s.flagAC
            pc := s.pc + 1 }

/-- 41_inr_dcr.md R73. -/
def Obligations.DcrSubtractsOneAndSetsZSP : Prop :=
  ∀ r : RegSel,
    (∀ rest : List Byte, decode ((0b00#2 ++ r.code ++ 0b101#3 : Byte) :: rest) = .ok (.dcr r, rest)) ∧
    ∀ s : State,
      let res : Byte := BitVec.ofNat 8 (((s.readOp r).toNat + 255) % 256)
      exec (.dcr r) s =
        .next
          { s.writeOp r res with
            flagZ := decide (res.toNat = 0)
            flagS := decide (128 ≤ res.toNat)
            flagP := evenOnes res
            flagCF := s.flagCF
            flagAC := acUnder Config.acPolicy (acOfDcr res) s.flagAC
            pc := s.pc + 1 }

/-- 42_cma.md R74: `A` becomes `255 - A`; no flag. -/
def Obligations.CmaComplementsAccumulatorOnly : Prop :=
  (∀ rest : List Byte, decode (0b0010_1111 :: rest) = .ok (.cma, rest)) ∧
  ∀ s : State, exec .cma s = .next { s with a := BitVec.ofNat 8 (255 - s.a.toNat), pc := s.pc + 1 }

/-- 43_mov_hlt.md R75. Which field is the destination is decision D11 (log 7). -/
def Obligations.MovWritesSourceToDestination : Prop :=
  ∀ dst src : RegSel, ¬(dst = .m ∧ src = .m) →
    (∀ rest : List Byte, decode ((0b01#2 ++ dst.code ++ src.code : Byte) :: rest) = .ok (.mov dst src, rest)) ∧
    ∀ s : State, exec (.mov dst src) s = .next { s.writeOp dst (s.readOp src) with pc := s.pc + 1 }

/-- 43_mov_hlt.md R75, the source's property: the destination ends with the source's prior value, and the source (for
`M` the cell at the old `HL`) is unchanged unless it is the destination. -/
def Obligations.MovDeliversSourceAndKeepsIt : Prop :=
  ∀ (dst src : RegSel) (s : State), s.mem.wf = true → ¬(dst = .m ∧ src = .m) →
    ∃ t, exec (.mov dst src) s = .next t ∧
      t.readOp dst = s.readOp src ∧
      (src ≠ dst → src ≠ .m → t.readOp src = s.readOp src) ∧
      (src = .m → t.read s.hl = s.read s.hl) ∧
      (dst = src → t = { s with pc := s.pc + 1 })

/-- 43_mov_hlt.md R76 under `HLT_POLICY = halt` (decision D3, log 3). -/
def Obligations.HltAdvancesAndHalts : Prop :=
  (∀ rest : List Byte, decode (0b0111_0110 :: rest) = .ok (.hlt, rest)) ∧
  ∀ s : State, exec .hlt s = .next { s with halted := true, pc := s.pc + 1 }

/-- 43_mov_hlt.md R76, 70_reset_and_hazards.md R124: from a halted state no number of steps changes anything (decisions
D3, D19, log 3, 22). -/
def Obligations.HaltedCoreStaysAsItIs : Prop :=
  ∀ (k : Nat) (s : State), s.halted = true → RunsTo k s s

/-- 44_ldax_stax.md R77. The bits are decision D9 (log 7), the pair address D12 (log 12). -/
def Obligations.LdaxLoadsAccumulatorThroughPair : Prop :=
  (∀ rest : List Byte, decode (0b0000_1010 :: rest) = .ok (.ldax .bc, rest)) ∧
  (∀ rest : List Byte, decode (0b0001_1010 :: rest) = .ok (.ldax .de, rest)) ∧
  ∀ s : State,
    exec (.ldax .bc) s = .next { s with a := s.read (wordOf s.b s.c), pc := s.pc + 1 } ∧
    exec (.ldax .de) s = .next { s with a := s.read (wordOf s.d s.e), pc := s.pc + 1 }

/-- 44_ldax_stax.md R78. The bits are decision D9 (log 7), the pair address D12 (log 12). The one cell written is the one
the pair addresses; every other cell reads as before. -/
def Obligations.StaxStoresAccumulatorThroughPair : Prop :=
  (∀ rest : List Byte, decode (0b0000_0010 :: rest) = .ok (.stax .bc, rest)) ∧
  (∀ rest : List Byte, decode (0b0001_0010 :: rest) = .ok (.stax .de, rest)) ∧
  ∀ (rp : IndirectPair) (s : State), s.mem.wf = true →
    ∃ t, exec (.stax rp) s = .next t ∧ t = { s with mem := t.mem, pc := s.pc + 1 } ∧
      ∀ addr : Word, t.read addr = if addr = s.indirectAddr rp then s.a else s.read addr

/-- 45_alu.md R81. The selector code is decision D10 (log 7); `AC` is held (decision D4, log 2). -/
def Obligations.AddSetsSumAndCarry : Prop :=
  ∀ r : RegSel,
    (∀ rest : List Byte, decode ((0b10000#5 ++ r.code : Byte) :: rest) = .ok (.add r, rest)) ∧
    ∀ s : State,
      let t := s.a.toNat + (s.readOp r).toNat
      let res : Byte := BitVec.ofNat 8 (t % 256)
      exec (.add r) s =
        .next
          { s with
            a := res
            flagCF := decide (256 ≤ t)
            flagZ := decide (res.toNat = 0)
            flagS := decide (128 ≤ res.toNat)
            flagP := evenOnes res
            pc := s.pc + 1 }

/-- 45_alu.md R82. The selector code is decision D10 (log 7); `AC` is held (decision D4, log 2). -/
def Obligations.AdcSetsSumWithCarryIn : Prop :=
  ∀ r : RegSel,
    (∀ rest : List Byte, decode ((0b10001#5 ++ r.code : Byte) :: rest) = .ok (.adc r, rest)) ∧
    ∀ s : State,
      let t := s.a.toNat + (s.readOp r).toNat + s.flagCF.toNat
      let res : Byte := BitVec.ofNat 8 (t % 256)
      exec (.adc r) s =
        .next
          { s with
            a := res
            flagCF := decide (256 ≤ t)
            flagZ := decide (res.toNat = 0)
            flagS := decide (128 ≤ res.toNat)
            flagP := evenOnes res
            pc := s.pc + 1 }

/-- 45_alu.md R83. The borrow sense is decision D16 (log 11), the selector D10 (log 7); `AC` is held (D4, log 2). -/
def Obligations.SubSetsDifferenceAndBorrow : Prop :=
  ∀ r : RegSel,
    (∀ rest : List Byte, decode ((0b10010#5 ++ r.code : Byte) :: rest) = .ok (.sub r, rest)) ∧
    ∀ s : State,
      let v := (s.readOp r).toNat
      let res : Byte := BitVec.ofNat 8 ((s.a.toNat + 256 - v) % 256)
      exec (.sub r) s =
        .next
          { s with
            a := res
            flagCF := decide (s.a.toNat < v)
            flagZ := decide (res.toNat = 0)
            flagS := decide (128 ≤ res.toNat)
            flagP := evenOnes res
            pc := s.pc + 1 }

/-- 45_alu.md R84. The borrow sense is decision D16 (log 11), the selector D10 (log 7); `AC` is held (D4, log 2). -/
def Obligations.SbbSetsDifferenceWithBorrowIn : Prop :=
  ∀ r : RegSel,
    (∀ rest : List Byte, decode ((0b10011#5 ++ r.code : Byte) :: rest) = .ok (.sbb r, rest)) ∧
    ∀ s : State,
      let v := (s.readOp r).toNat + s.flagCF.toNat
      let res : Byte := BitVec.ofNat 8 ((s.a.toNat + 256 - v) % 256)
      exec (.sbb r) s =
        .next
          { s with
            a := res
            flagCF := decide (s.a.toNat < v)
            flagZ := decide (res.toNat = 0)
            flagS := decide (128 ≤ res.toNat)
            flagP := evenOnes res
            pc := s.pc + 1 }

/-- 45_alu.md R85 to R87. `CF` cleared is decision D15 (log 11), the selectors D10 (log 7); `AC` is held (D4, log 2). -/
def Obligations.LogicalOpsClearCarry : Prop :=
  ∀ r : RegSel,
    (∀ rest : List Byte, decode ((0b10100#5 ++ r.code : Byte) :: rest) = .ok (.ana r, rest)) ∧
    (∀ rest : List Byte, decode ((0b10101#5 ++ r.code : Byte) :: rest) = .ok (.xra r, rest)) ∧
    (∀ rest : List Byte, decode ((0b10110#5 ++ r.code : Byte) :: rest) = .ok (.ora r, rest)) ∧
    ∀ s : State,
      let after (res : Byte) : State :=
        { s with
          a := res
          flagCF := false
          flagZ := decide (res.toNat = 0)
          flagS := decide (128 ≤ res.toNat)
          flagP := evenOnes res
          pc := s.pc + 1 }
      exec (.ana r) s = .next (after (s.a &&& s.readOp r)) ∧
      exec (.xra r) s = .next (after (s.a ^^^ s.readOp r)) ∧
      exec (.ora r) s = .next (after (s.a ||| s.readOp r))

/-- 45_alu.md R88. The borrow sense is decision D16 (log 11), the selector D10 (log 7); `AC` is held (D4, log 2). `Z`
says the operands are equal and `CF` that `A` is below the operand. -/
def Obligations.CmpSetsFlagsAndKeepsAccumulator : Prop :=
  ∀ r : RegSel,
    (∀ rest : List Byte, decode ((0b10111#5 ++ r.code : Byte) :: rest) = .ok (.cmp r, rest)) ∧
    ∀ s : State,
      let v := (s.readOp r).toNat
      let res : Byte := BitVec.ofNat 8 ((s.a.toNat + 256 - v) % 256)
      exec (.cmp r) s =
        .next
          { s with
            flagCF := decide (s.a.toNat < v)
            flagZ := decide (s.a = s.readOp r)
            flagS := decide (128 ≤ res.toNat)
            flagP := evenOnes res
            pc := s.pc + 1 }

/-- 46_lxi.md R91. The pair codes are decision D11 (log 7), the target `SP` D7 (log 8). -/
def Obligations.LxiLoadsPairLowByteFirst : Prop :=
  ∀ lo hi : Byte,
    (∀ (rp : RegPair) (rest : List Byte),
      decode ((0b00#2 ++ rp.code ++ 0b0001#4 : Byte) :: lo :: hi :: rest) = .ok (.lxi rp (wordOf hi lo), rest)) ∧
    ∀ s : State,
      exec (.lxi .bc (wordOf hi lo)) s = .next { s with b := hi, c := lo, pc := s.pc + 3 } ∧
      exec (.lxi .de (wordOf hi lo)) s = .next { s with d := hi, e := lo, pc := s.pc + 3 } ∧
      exec (.lxi .hl (wordOf hi lo)) s = .next { s with h := hi, l := lo, pc := s.pc + 3 } ∧
      exec (.lxi .sp (wordOf hi lo)) s = .next { s with sp := wordOf hi lo, pc := s.pc + 3 }

/-- 47_mvi.md R92: the instruction, and the step that fetches it. That the step makes `LASTOP` the opcode is 10_state.md
R31, decision D17 (log 6), noted before the instruction runs (log 18); the wrap of `PC` + 1 is decision D13 (log 9). -/
def Obligations.MviWritesImmediateToSlot : Prop :=
  ∀ (r : RegSel) (d8 : Byte),
    (∀ rest : List Byte, decode ((0b00#2 ++ r.code ++ 0b110#3 : Byte) :: d8 :: rest) = .ok (.mvi r d8, rest)) ∧
    (∀ s : State, exec (.mvi r d8) s = .next { s.writeOp r d8 with pc := s.pc + 2 }) ∧
    ∀ s : State, s.halted = false → s.read s.pc = (0b00#2 ++ r.code ++ 0b110#3 : Byte) → s.read (s.pc + 1) = d8 →
      step s = .next { s.writeOp r d8 with pc := s.pc + 2, lastop := some (s.read s.pc) }

/-- 48_nop_unimplemented.md R93: the instruction, and the step that fetches it, with `LASTOP`
as R93 says (10_state.md R31, decision D17, log 6). -/
def Obligations.NopChangesOnlyPc : Prop :=
  (∀ rest : List Byte, decode (0b0000_0000 :: rest) = .ok (.nop, rest)) ∧
  (∀ s : State, exec .nop s = .next { s with pc := s.pc + 1 }) ∧
  ∀ s : State, s.halted = false → s.read s.pc = 0x00 → step s = .next { s with pc := s.pc + 1, lastop := some 0x00 }

/-- 48_nop_unimplemented.md R94 under `UNIMPL_POLICY = nop1` (decision D2, log 4). -/
def Obligations.UnimplementedOpcodeIsOneByteNoOp : Prop :=
  ∀ op : Byte, (op.toNat ≥ 0xC0 ∨ op ∈ unimplementedLow) →
    (∀ rest : List Byte, decode (op :: rest) = .ok (.unimpl op, rest)) ∧
    ∀ s : State, exec (.unimpl op) s = .next { s with pc := s.pc + 1 }

/-! ## Decoder -/

/-- Words written out from the formats of 30_encoding.md R55 decode to the instructions they stand for (log 7). -/
def Obligations.WrittenOutWordsDecode : Prop :=
  decode [0b0011_0111] = .ok (.stc, []) ∧ decode [0b0011_1111] = .ok (.cmc, []) ∧
  decode [0b0011_0100] = .ok (.inr .m, []) ∧ decode [0b0001_1101] = .ok (.dcr .e, []) ∧
  decode [0b0010_1111] = .ok (.cma, []) ∧ decode [0b0111_0110] = .ok (.hlt, []) ∧
  decode [0b0111_1110] = .ok (.mov .a .m, []) ∧ decode [0b0001_0010] = .ok (.stax .de, []) ∧
  decode [0b0000_1010] = .ok (.ldax .bc, []) ∧ decode [0b1001_1101] = .ok (.sbb .l, []) ∧
  decode [0b0011_0001, 0xFE, 0xFF] = .ok (.lxi .sp 0xFFFE, []) ∧
  decode [0b0011_0110, 0xBB] = .ok (.mvi .m 0xBB, []) ∧ decode [0x00] = .ok (.nop, []) ∧
  decode [0b1100_0011] = .ok (.unimpl 0xC3, [])

/-- 30_encoding.md R57: each class by its mask and match, the halt row before the move row. -/
def Obligations.ClassesFollowMasks : Prop :=
  ∀ op : Byte,
    (op &&& 0xF7 = 0x37 → classify op = .carryFlag) ∧ (op &&& 0xC7 = 0x04 → classify op = .increment) ∧
    (op &&& 0xC7 = 0x05 → classify op = .decrement) ∧ (op = 0x2F → classify op = .complement) ∧
    (op = 0x76 → classify op = .halt) ∧ (op &&& 0xC0 = 0x40 → op ≠ 0x76 → classify op = .move) ∧
    (op &&& 0xE7 = 0x02 → classify op = .indirect) ∧ (op &&& 0xC0 = 0x80 → classify op = .alu) ∧
    (op &&& 0xCF = 0x01 → classify op = .loadPair) ∧ (op &&& 0xC7 = 0x06 → classify op = .moveImmediate) ∧
    (op = 0x00 → classify op = .noOperation) ∧
    (op &&& 0xF7 ≠ 0x37 ∧ op &&& 0xC7 ≠ 0x04 ∧ op &&& 0xC7 ≠ 0x05 ∧ op ≠ 0x2F ∧ op &&& 0xC0 ≠ 0x40 ∧
      op &&& 0xE7 ≠ 0x02 ∧ op &&& 0xC0 ≠ 0x80 ∧ op &&& 0xCF ≠ 0x01 ∧ op &&& 0xC7 ≠ 0x06 ∧ op ≠ 0x00 →
      classify op = .unimplemented)

/-- 30_encoding.md R58, R63: exactly the 92 listed values are unimplemented. -/
def Obligations.ExactlyListedOpcodesAreUnimplemented : Prop :=
  (∀ op : Byte, classify op = .unimplemented ↔ (op.toNat ≥ 0xC0 ∨ op ∈ unimplementedLow)) ∧
  ((List.range 256).filter (fun n => classify (BitVec.ofNat 8 n) == .unimplemented)).length = 92

/-- 30_encoding.md R64: `0x76` is `HLT`, and no bytes decode to a move of `M` to `M`. -/
def Obligations.HaltEncodingIsNeverAMove : Prop :=
  (∀ rest : List Byte, decode (0x76 :: rest) = .ok (.hlt, rest)) ∧
  ∀ (bytes : List Byte) (dst src : RegSel) (rest : List Byte),
    decode bytes = .ok (.mov dst src, rest) → ¬(dst = .m ∧ src = .m)

/-- 30_encoding.md R53: the length is a function of the opcode byte alone. -/
def Obligations.DecodeTakesOpcodeLength : Prop :=
  ∀ (op x y : Byte) (rest : List Byte),
    ∃ i : Instr, decode (op :: x :: y :: rest) = .ok (i, (op :: x :: y :: rest).drop (opcodeLength op))

/-- 30_encoding.md R56: the immediates, from the bytes at `PC + 1` and `PC + 2` modulo 65536. -/
def Obligations.FetchAssemblesImmediates : Prop :=
  ∀ s : State,
    (∀ r : RegSel, s.read s.pc = (0b00#2 ++ r.code ++ 0b110#3 : Byte) →
      s.fetch = .mvi r (s.read (BitVec.ofNat 16 ((s.pc.toNat + 1) % 65536)))) ∧
    (∀ rp : RegPair, s.read s.pc = (0b00#2 ++ rp.code ++ 0b0001#4 : Byte) →
      s.fetch =
        .lxi rp
          (wordOf (s.read (BitVec.ofNat 16 ((s.pc.toNat + 2) % 65536)))
            (s.read (BitVec.ofNat 16 ((s.pc.toNat + 1) % 65536)))))

/-- Decoding what was encoded gives the instruction back, with the bytes after it. -/
def Obligations.DecodeOfEncodeIsInstruction : Prop :=
  ∀ (i : Instr) (rest : List Byte), i.wf = true → decode (encode i ++ rest) = .ok (i, rest)

/-- Each sequence of bytes has one meaning: what decodes is well-formed and encodes to the bytes taken. -/
def Obligations.DecodedBytesAreTheEncoding : Prop :=
  ∀ (bytes : List Byte) (i : Instr) (rest : List Byte),
    decode bytes = .ok (i, rest) → i.wf = true ∧ encode i ++ rest = bytes

/-! ## The step -/

/-- 00_scope.md R6: when the bytes at `PC` decode to `i`, the step is `exec i` with `LASTOP` noted first (decision D17,
log 18). -/
def Obligations.StepRunsDecodedInstruction : Prop :=
  ∀ (s : State) (i : Instr) (rest : List Byte), s.halted = false →
    decode [s.read s.pc, s.read (s.pc + 1), s.read (s.pc + 2)] = .ok (i, rest) →
    i.wf = true ∧ step s = exec i { s with lastop := some (s.read s.pc) }

/-- 00_scope.md R6: from every state there is exactly one next state, under the policies in force (log 3, 4). -/
def Obligations.EveryStepAnswersOneNextState : Prop :=
  ∀ s : State, ∃! t : State, step s = .next t

/-- 10_state.md R22: `PC` moves by the length of the instruction modulo 65536, and not at all in a halted core (log 3). -/
def Obligations.StepAdvancesPcByLength : Prop :=
  ∀ s t : State, step s = .next t →
    t.pc = if s.halted then s.pc else BitVec.ofNat 16 ((s.pc.toNat + opcodeLength (s.read s.pc)) % 65536)

/-- 10_state.md R31: `LASTOP` is the opcode byte fetched (decision D17, log 6). -/
def Obligations.StepRecordsOpcodeInLastop : Prop :=
  ∀ s t : State, step s = .next t → t.lastop = if s.halted then s.lastop else some (s.read s.pc)

/-- 10_state.md R30: only the opcode `0x76` halts (decision D3, log 3). -/
def Obligations.OnlyHaltOpcodeHalts : Prop :=
  ∀ s t : State, s.halted = false → step s = .next t → (t.halted = true ↔ s.read s.pc = 0x76)

/-- 10_state.md R23: only `LXI SP` changes `SP` (decision D7, log 8). -/
def Obligations.OnlyLxiSpChangesSp : Prop :=
  ∀ s t : State, step s = .next t → t.sp ≠ s.sp → s.halted = false ∧ s.read s.pc = 0x31

/-- The headline invariant: every step keeps memory canonical (the model's own form, log 15) and a halted core halted by
`0x76` (`HLT` decision D3, log 3; `HALTED` and `LASTOP` decision D17, log 6). -/
def Obligations.StepKeepsInv : Prop := ∀ s t : State, s.Inv → step s = .next t → t.Inv

/-! ## Frames -/

/-- 10_state.md R17: an instruction changes no register but those it writes, and leaves `LASTOP`; `SP` but for `LXI SP`,
`HALTED` but for `HLT`. -/
def Obligations.InstructionsKeepOtherRegisters : Prop :=
  ∀ (i : Instr) (s t : State), exec i s = .next t →
    (∀ r : RegSel, r ≠ .m → writesReg i r = false → t.readOp r = s.readOp r) ∧
    ((∀ d16 : Word, i ≠ .lxi .sp d16) → t.sp = s.sp) ∧
    (i ≠ .hlt → t.halted = s.halted) ∧
    t.lastop = s.lastop

/-- 10_state.md R25: an instruction changes no flag but those its row of the table writes; `AC` is held (decision D4,
log 2). -/
def Obligations.InstructionsKeepOtherFlags : Prop :=
  ∀ (i : Instr) (s t : State) (f : Flag), exec i s = .next t → writesFlag i f = false → t.flag f = s.flag f

/-- 20_memory.md R41, R37: a storing form (`INR M`, `DCR M`, `MOV M,r`, `MVI M` at `HL`; `STAX` at its pair) leaves every
other byte of memory, and every other form leaves all of it. -/
def Obligations.InstructionsKeepOtherMemory : Prop :=
  ∀ (i : Instr) (s t : State), s.mem.wf = true → exec i s = .next t →
    match i with
    | .inr .m | .dcr .m | .mov .m _ | .mvi .m _ => ∀ addr : Word, addr ≠ s.hl → t.read addr = s.read addr
    | .stax rp => ∀ addr : Word, addr ≠ s.indirectAddr rp → t.read addr = s.read addr
    | _ => ∀ addr : Word, t.read addr = s.read addr

/-- 20_memory.md R41, R42: the access list. At most three fetches, then at most one data read, then at most one data
write; none in a halted core (log 10). -/
def Obligations.StepMakesFewOrderedAccesses : Prop :=
  ∀ s : State,
    (s.halted = true → s.accesses = []) ∧
    (s.halted = false →
      ∃ (n : Nat) (r w : Option Word), n = opcodeLength (s.read s.pc) ∧ 1 ≤ n ∧ n ≤ 3 ∧
        s.accesses =
          ((List.range n).map (fun k => Access.fetch (s.pc + BitVec.ofNat 16 k))) ++ r.toList.map .read ++
            w.toList.map .write)

/-- 20_memory.md R41: a step's outcome depends on no byte of memory but those its access list reads, and it changes no
byte but the one its access list writes. -/
def Obligations.StepDependsOnlyOnBytesItReads : Prop :=
  ∀ s s' t t' : State, s.mem.wf = true → s'.mem.wf = true → { s' with mem := s.mem } = s →
    (∀ addr : Word, .fetch addr ∈ s.accesses ∨ .read addr ∈ s.accesses → s'.read addr = s.read addr) →
    step s = .next t → step s' = .next t' →
    { t' with mem := t.mem } = t ∧
    (∀ addr : Word, t'.read addr = if .write addr ∈ s.accesses then t.read addr else s'.read addr) ∧
    (∀ addr : Word, .write addr ∉ s.accesses → t.read addr = s.read addr)

/-- 70_reset_and_hazards.md R130: `Z`, `S`, `P`, `AC`, `SP` (and `LASTOP`) reach nothing a program can observe, in any
number of steps. -/
def Obligations.HiddenStateNeverReachesObservable : Prop :=
  ∀ (k : Nat) (s s' t t' : State), s.observable = s'.observable → RunsTo k s t → RunsTo k s' t' →
    t.observable = t'.observable

/-! ## Laws of the ALU group and the parameters not in force -/

/-- 45_alu.md R89: the identities of the group. -/
def Obligations.AluIdentities : Prop :=
  (∀ (r : RegSel) (s : State), s.flagCF = false →
    exec (.adc r) s = exec (.add r) s ∧ exec (.sbb r) s = exec (.sub r) s) ∧
  (∀ (r : RegSel) (s : State), ∃ u, exec (.sub r) s = .next u ∧ exec (.cmp r) s = .next { u with a := s.a }) ∧
  ∀ (a v : Byte) (cf : Bool),
    (aluT .sub a v cf).setWidth 8 = (aluT .add a (BitVec.ofNat 8 ((256 - v.toNat) % 256)) cf).setWidth 8 ∧
    (v ≠ 0 → (aluT .sub a v cf).getLsbD 8 = !(aluT .add a (BitVec.ofNat 8 ((256 - v.toNat) % 256)) cf).getLsbD 8) ∧
    (v = 0 → (aluT .sub a v cf).getLsbD 8 = false)

/-- 45_alu.md R90: the accumulator as its own operand (`AC` held, log 2). -/
def Obligations.AluOnAccumulatorItself : Prop :=
  ∀ s : State,
    let after (res : Byte) (cf : Bool) : State :=
      { s with
        a := res
        flagCF := cf
        flagZ := decide (res.toNat = 0)
        flagS := decide (128 ≤ res.toNat)
        flagP := evenOnes res
        pc := s.pc + 1 }
    exec (.add .a) s = .next (after (BitVec.ofNat 8 (2 * s.a.toNat % 256)) (s.a.getLsbD 7)) ∧
    exec (.adc .a) s = .next (after (BitVec.ofNat 8 ((2 * s.a.toNat + s.flagCF.toNat) % 256)) (s.a.getLsbD 7)) ∧
    exec (.sub .a) s = .next (after 0x00 false) ∧
    exec (.sbb .a) s = .next (after (if s.flagCF then 0xFF else 0x00) s.flagCF) ∧
    exec (.ana .a) s = .next (after s.a false) ∧
    exec (.xra .a) s = .next (after 0x00 false) ∧
    exec (.ora .a) s = .next (after s.a false) ∧
    exec (.cmp .a) s = .next { after 0x00 false with a := s.a }

/-- 10_state.md R27 and 93_implementation_defined.md U4: `AC` under each policy. The formulas are not in force and are
from general knowledge (log 2, 23). -/
def Obligations.AuxiliaryCarryUnderEachPolicy : Prop :=
  (∀ new old : Bool, acUnder .held new old = old ∧ acUnder .i8080 new old = new) ∧
  ∀ (a v : Byte) (cf : Bool),
    aluAC .add a v cf = decide (a.toNat % 16 + v.toNat % 16 > 15) ∧
    aluAC .adc a v cf = decide (a.toNat % 16 + v.toNat % 16 + cf.toNat > 15) ∧
    aluAC .sub a v cf = decide (v.toNat % 16 ≤ a.toNat % 16) ∧
    aluAC .cmp a v cf = decide (v.toNat % 16 ≤ a.toNat % 16) ∧
    aluAC .sbb a v cf = decide (v.toNat % 16 + cf.toNat ≤ a.toNat % 16) ∧
    aluAC .ana a v cf = (a.getLsbD 3 || v.getLsbD 3) ∧ aluAC .xra a v cf = false ∧ aluAC .ora a v cf = false ∧
    acOfInr v = decide (v.toNat % 16 = 0) ∧ acOfDcr v = decide (v.toNat % 16 ≠ 15)

/-- The values of `HLT_POLICY` (43_mov_hlt.md R76) and `UNIMPL_POLICY` (48_nop_unimplemented.md R94), those not in force
among them (log 3, 4). -/
def Obligations.HaltAndUnimplementedUnderEachPolicy : Prop :=
  ∀ (op : Byte) (s : State),
    s.hltUnder .halt = { s with halted := true, pc := s.pc + 1 } ∧
    s.hltUnder .nop = { s with pc := s.pc + 1 } ∧
    unimplUnder .nop1 op s = .next { s with pc := s.pc + 1 } ∧
    unimplUnder .refuse op s = .refused (.unimplementedOpcode op)
end

