-- ==== Sys2Proof/Laws/Decode.lean ====
section
/-! SUPPORT. The codes of slots and pairs name what they were made from, and the forms of the decoder. -/

namespace Sys2Proof

@[simp] theorem RegSel.ofCode_code (r : RegSel) : RegSel.ofCode r.code = r := by cases r <;> rfl

@[simp] theorem RegPair.ofCode_code (rp : RegPair) : RegPair.ofCode rp.code = rp := by cases rp <;> rfl

@[simp] theorem IndirectPair.ofBit_bit (rp : IndirectPair) : IndirectPair.ofBit (rp.bit == 1) = rp := by
  cases rp <;> rfl

/-! ## Two bytes as a 16-bit value -/

theorem pairOf_getLsbD (hi lo : Byte) (i : Nat) :
    (pairOf hi lo).getLsbD i = if i < 8 then lo.getLsbD i else hi.getLsbD (i - 8) := by
  by_cases h : i < 8
  · simp [pairOf, h, show i < 16 by omega]
  · have hlo := BitVec.getLsbD_of_ge lo i (by omega)
    by_cases h16 : i < 16
    · simp [pairOf, h, h16, hlo]
    · have hhi := BitVec.getLsbD_of_ge hi (i - 8) (by omega)
      simp [pairOf, h, h16, hhi]

@[simp] theorem pairOf_low (hi lo : Byte) : (pairOf hi lo).extractLsb' 0 8 = lo := by
  apply BitVec.eq_of_getLsbD_eq
  intro i hi'
  simp [pairOf_getLsbD, hi']

@[simp] theorem pairOf_high (hi lo : Byte) : (pairOf hi lo).extractLsb' 8 8 = hi := by
  apply BitVec.eq_of_getLsbD_eq
  intro i hi'
  simp [pairOf_getLsbD, hi']

@[simp] theorem pairOf_extract (v : Word) : pairOf (v.extractLsb' 8 8) (v.extractLsb' 0 8) = v := by
  apply BitVec.eq_of_getLsbD_eq
  intro i hi'
  rw [pairOf_getLsbD]
  by_cases h : i < 8
  · simp [h]
  · simp [h, show i - 8 < 8 by omega, show 8 + (i - 8) = i by omega]

/-- A pair value as a number (10_state.md R18). -/
theorem pairOf_toNat (hi lo : Byte) : (pairOf hi lo).toNat = hi.toNat * 256 + lo.toNat := by
  have hhi := hi.isLt
  have hlo := lo.isLt
  have hshift : (hi.setWidth 16 <<< 8).toNat = hi.toNat <<< 8 := by
    simp [Nat.shiftLeft_eq]
    omega
  have hmod : lo.toNat % 65536 = lo.toNat := Nat.mod_eq_of_lt (by omega)
  rw [pairOf, BitVec.toNat_or, hshift, BitVec.toNat_setWidth, hmod, ← Nat.shiftLeft_add_eq_or_of_lt hlo,
    Nat.shiftLeft_eq]

/-! ## The forms of the decoder -/

/-- A whole form is one byte of the list. -/
theorem decode_whole {op : Byte} {i : Instr} (hform : opForm op = .whole i) (rest : List Byte) :
    decode (op :: rest) = .ok (i, rest) := by
  simp [decode, hform]

/-- A form with an 8-bit immediate takes the byte after the opcode (30_encoding.md R56). -/
theorem decode_needsD8 {op : Byte} {r : RegSel} (hform : opForm op = .needsD8 r) (d8 : Byte) (rest : List Byte) :
    decode (op :: d8 :: rest) = .ok (.mvi r d8, rest) := by
  simp [decode, hform]

/-- A form with a 16-bit immediate takes the two bytes after the opcode, the low one first (30_encoding.md R56). -/
theorem decode_needsD16 {op : Byte} {rp : RegPair} (hform : opForm op = .needsD16 rp) (lo hi : Byte)
    (rest : List Byte) : decode (op :: lo :: hi :: rest) = .ok (.lxi rp (d16Of lo hi), rest) := by
  simp [decode, hform]

end Sys2Proof
end

