-- ==== Sys2Proof/Laws/Memory.lean ====
section
/-! SUPPORT. The laws of memory: a byte read after a write, and every operation keeps the canonical form. -/

namespace Sys2Proof.Machine

theorem Memory.wfFrom_cons (lo k : Nat) (w : Byte) (rest : Memory) :
    Memory.wfFrom lo ((k, w) :: rest) = true ↔
      lo ≤ k ∧ k < 65536 ∧ w ≠ Memory.unlisted ∧ Memory.wfFrom (k + 1) rest = true := by
  simp [Memory.wfFrom, and_assoc]

theorem Memory.wfFrom_mono {lo lo' : Nat} (hle : lo' ≤ lo) :
    ∀ {m : Memory}, Memory.wfFrom lo m = true → Memory.wfFrom lo' m = true
  | [], _ => rfl
  | (k, w) :: rest, hwf => by
    rw [Memory.wfFrom_cons] at hwf ⊢
    exact ⟨hle.trans hwf.1, hwf.2⟩

/-- `put` keeps the canonical form. -/
theorem Memory.wfFrom_put {k : Nat} (v : Byte) (hk : k < 65536) :
    ∀ {m : Memory} {lo : Nat}, lo ≤ k → Memory.wfFrom lo m = true → Memory.wfFrom lo (Memory.put m k v) = true
  | [], lo, hlo, _ => by
    by_cases hv : v = Memory.unlisted <;> simp [Memory.put, Memory.wfFrom, hv, hlo, hk]
  | (k', w) :: rest, lo, hlo, hwf => by
    have hcons := hwf
    rw [Memory.wfFrom_cons] at hcons
    obtain ⟨hlk', hk', hw, hrest⟩ := hcons
    rw [Memory.put]
    by_cases hv : v = Memory.unlisted
    · rcases Nat.lt_trichotomy k k' with hlt | heq | hgt
      · simpa [hv, hlt] using hwf
      · subst heq
        simpa [hv] using Memory.wfFrom_mono (by omega) hrest
      · rw [if_neg (by omega), if_neg (by omega), Memory.wfFrom_cons]
        exact ⟨hlk', hk', hw, Memory.wfFrom_put v hk hgt hrest⟩
    · rcases Nat.lt_trichotomy k k' with hlt | heq | hgt
      · simp only [hv, hlt, if_true, if_false, Memory.wfFrom_cons]
        exact ⟨hlo, hk, hv, hlt, hk', hw, hrest⟩
      · subst heq
        simp only [hv, lt_irrefl, if_true, if_false, Memory.wfFrom_cons]
        exact ⟨hlo, hk, hv, hrest⟩
      · rw [if_neg (by omega), if_neg (by omega), Memory.wfFrom_cons]
        exact ⟨hlk', hk', hw, Memory.wfFrom_put v hk hgt hrest⟩

/-- Below a canonical list every address reads as an unlisted cell. -/
theorem Memory.lookup_of_lt {k : Nat} :
    ∀ {m : Memory} {lo : Nat}, Memory.wfFrom lo m = true → k < lo → Memory.lookup m k = Memory.unlisted
  | [], _, _, _ => rfl
  | (k', w) :: rest, lo, hwf, hlt => by
    rw [Memory.wfFrom_cons] at hwf
    rw [Memory.lookup, if_pos (by omega)]

/-- A byte listed after `put`: the byte put at its own address, any other address as before. -/
theorem Memory.lookup_put (k j : Nat) (v : Byte) :
    ∀ {m : Memory} {lo : Nat}, Memory.wfFrom lo m = true →
      Memory.lookup (Memory.put m k v) j = if j = k then v else Memory.lookup m j
  | [], _, _ => by
    by_cases hv : v = Memory.unlisted <;> by_cases hj : j = k <;> simp [Memory.put, Memory.lookup, hv, hj]
  | (k', w) :: rest, lo, hwf => by
    rw [Memory.wfFrom_cons] at hwf
    have hlow : ∀ i, i ≤ k' → Memory.lookup rest i = Memory.unlisted :=
      fun i hi => Memory.lookup_of_lt hwf.2.2.2 (by omega)
    rw [Memory.put]
    rcases Nat.lt_trichotomy k k' with hlt | heq | hgt
    · rw [if_pos hlt]
      by_cases hv : v = Memory.unlisted
      · rw [if_pos hv]
        split
        · next hj => rw [Memory.lookup, if_pos (by omega), hv]
        · rfl
      · rw [if_neg hv, Memory.lookup]
        rcases Nat.lt_trichotomy j k with h1 | h1 | h1
        · rw [if_pos h1, if_neg (by omega), Memory.lookup, if_pos (by omega)]
        · rw [if_neg (by omega), if_pos h1]
        · rw [if_neg (by omega), if_neg (by omega)]
    · subst heq
      rw [if_neg (by omega), if_pos rfl]
      by_cases hv : v = Memory.unlisted
      · rw [if_pos hv]
        rcases Nat.lt_trichotomy j k with h1 | h1 | h1
        · rw [hlow j (by omega), if_neg (by omega), Memory.lookup, if_pos h1]
        · rw [hlow j (by omega), if_pos h1, hv]
        · rw [if_neg (by omega), Memory.lookup, if_neg (by omega), if_neg (by omega)]
      · rw [if_neg hv, Memory.lookup, Memory.lookup]
        rcases Nat.lt_trichotomy j k with h1 | h1 | h1
        · rw [if_pos h1, if_neg (by omega), if_pos h1]
        · rw [if_neg (by omega), if_pos h1, if_pos h1]
        · rw [if_neg (by omega), if_neg (by omega), if_neg (by omega), if_neg (by omega), if_neg (by omega)]
    · rw [if_neg (by omega), if_neg (by omega), Memory.lookup, Memory.lookup]
      rcases Nat.lt_trichotomy j k' with h1 | h1 | h1
      · rw [if_pos h1, if_neg (by omega), if_pos h1]
      · rw [if_neg (by omega), if_pos h1, if_neg (by omega), if_neg (by omega), if_pos h1]
      · rw [if_neg (by omega), if_neg (by omega), Memory.lookup_put k j v hwf.2.2.2]
        simp [show ¬ j < k' by omega, show j ≠ k' by omega]

/-- `MemWrite` keeps the canonical form. -/
theorem Memory.wf_write {m : Memory} (hwf : m.wf = true) (addr : Word) (v : Byte) :
    Memory.wf (Memory.write m addr v) = true :=
  Memory.wfFrom_put v addr.isLt (Nat.zero_le _) hwf

/-- Writing a list of bytes keeps the canonical form. -/
theorem Memory.wf_writeBytes : ∀ (bytes : List Byte) {m : Memory} (addr : Word), m.wf = true →
    Memory.wf (Memory.writeBytes m addr bytes) = true
  | [], _, _, hwf => hwf
  | v :: rest, _, addr, hwf => Memory.wf_writeBytes rest (addr + 1) (Memory.wf_write hwf addr v)

/-- `MemRead` after `MemWrite` (20_memory.md R36, R37). -/
theorem Memory.read_write {m : Memory} (hwf : m.wf = true) (addr other : Word) (v : Byte) :
    Memory.read (Memory.write m addr v) other = if other = addr then v else Memory.read m other := by
  rw [Memory.read, Memory.write, Memory.lookup_put _ _ _ hwf]
  simp only [BitVec.toNat_inj, Memory.read]

/-- The memory of the reset state is in canonical form. -/
theorem State.reset_mem_wf : State.reset.mem.wf = true := rfl

/-- Laying bytes at `PC` keeps the canonical form. -/
theorem State.placeAtPc_mem_wf {s : State} (hwf : s.mem.wf = true) (bytes : List Byte) :
    (s.placeAtPc bytes).mem.wf = true :=
  Memory.wf_writeBytes bytes s.pc hwf

end Sys2Proof.Machine
end

