-- ==== Sys2Proof/Laws/State.lean ====
section
/-! SUPPORT. One lemma for each field under each update of Machine/State.lean: the field set holds the new value, every
other field is as before. -/

namespace Sys2Proof.Machine

section

variable (s : State)

@[simp] theorem State.setA_a (v : Byte) : (s.setA v).a = v := rfl
@[simp] theorem State.setA_b (v : Byte) : (s.setA v).b = s.b := rfl
@[simp] theorem State.setA_c (v : Byte) : (s.setA v).c = s.c := rfl
@[simp] theorem State.setA_d (v : Byte) : (s.setA v).d = s.d := rfl
@[simp] theorem State.setA_e (v : Byte) : (s.setA v).e = s.e := rfl
@[simp] theorem State.setA_h (v : Byte) : (s.setA v).h = s.h := rfl
@[simp] theorem State.setA_l (v : Byte) : (s.setA v).l = s.l := rfl
@[simp] theorem State.setA_pc (v : Byte) : (s.setA v).pc = s.pc := rfl
@[simp] theorem State.setA_sp (v : Byte) : (s.setA v).sp = s.sp := rfl
@[simp] theorem State.setA_flagS (v : Byte) : (s.setA v).flagS = s.flagS := rfl
@[simp] theorem State.setA_flagZ (v : Byte) : (s.setA v).flagZ = s.flagZ := rfl
@[simp] theorem State.setA_flagAC (v : Byte) : (s.setA v).flagAC = s.flagAC := rfl
@[simp] theorem State.setA_flagP (v : Byte) : (s.setA v).flagP = s.flagP := rfl
@[simp] theorem State.setA_flagCF (v : Byte) : (s.setA v).flagCF = s.flagCF := rfl
@[simp] theorem State.setA_mem (v : Byte) : (s.setA v).mem = s.mem := rfl
@[simp] theorem State.setA_halted (v : Byte) : (s.setA v).halted = s.halted := rfl
@[simp] theorem State.setA_lastop (v : Byte) : (s.setA v).lastop = s.lastop := rfl

@[simp] theorem State.setB_a (v : Byte) : (s.setB v).a = s.a := rfl
@[simp] theorem State.setB_b (v : Byte) : (s.setB v).b = v := rfl
@[simp] theorem State.setB_c (v : Byte) : (s.setB v).c = s.c := rfl
@[simp] theorem State.setB_d (v : Byte) : (s.setB v).d = s.d := rfl
@[simp] theorem State.setB_e (v : Byte) : (s.setB v).e = s.e := rfl
@[simp] theorem State.setB_h (v : Byte) : (s.setB v).h = s.h := rfl
@[simp] theorem State.setB_l (v : Byte) : (s.setB v).l = s.l := rfl
@[simp] theorem State.setB_pc (v : Byte) : (s.setB v).pc = s.pc := rfl
@[simp] theorem State.setB_sp (v : Byte) : (s.setB v).sp = s.sp := rfl
@[simp] theorem State.setB_flagS (v : Byte) : (s.setB v).flagS = s.flagS := rfl
@[simp] theorem State.setB_flagZ (v : Byte) : (s.setB v).flagZ = s.flagZ := rfl
@[simp] theorem State.setB_flagAC (v : Byte) : (s.setB v).flagAC = s.flagAC := rfl
@[simp] theorem State.setB_flagP (v : Byte) : (s.setB v).flagP = s.flagP := rfl
@[simp] theorem State.setB_flagCF (v : Byte) : (s.setB v).flagCF = s.flagCF := rfl
@[simp] theorem State.setB_mem (v : Byte) : (s.setB v).mem = s.mem := rfl
@[simp] theorem State.setB_halted (v : Byte) : (s.setB v).halted = s.halted := rfl
@[simp] theorem State.setB_lastop (v : Byte) : (s.setB v).lastop = s.lastop := rfl

@[simp] theorem State.setC_a (v : Byte) : (s.setC v).a = s.a := rfl
@[simp] theorem State.setC_b (v : Byte) : (s.setC v).b = s.b := rfl
@[simp] theorem State.setC_c (v : Byte) : (s.setC v).c = v := rfl
@[simp] theorem State.setC_d (v : Byte) : (s.setC v).d = s.d := rfl
@[simp] theorem State.setC_e (v : Byte) : (s.setC v).e = s.e := rfl
@[simp] theorem State.setC_h (v : Byte) : (s.setC v).h = s.h := rfl
@[simp] theorem State.setC_l (v : Byte) : (s.setC v).l = s.l := rfl
@[simp] theorem State.setC_pc (v : Byte) : (s.setC v).pc = s.pc := rfl
@[simp] theorem State.setC_sp (v : Byte) : (s.setC v).sp = s.sp := rfl
@[simp] theorem State.setC_flagS (v : Byte) : (s.setC v).flagS = s.flagS := rfl
@[simp] theorem State.setC_flagZ (v : Byte) : (s.setC v).flagZ = s.flagZ := rfl
@[simp] theorem State.setC_flagAC (v : Byte) : (s.setC v).flagAC = s.flagAC := rfl
@[simp] theorem State.setC_flagP (v : Byte) : (s.setC v).flagP = s.flagP := rfl
@[simp] theorem State.setC_flagCF (v : Byte) : (s.setC v).flagCF = s.flagCF := rfl
@[simp] theorem State.setC_mem (v : Byte) : (s.setC v).mem = s.mem := rfl
@[simp] theorem State.setC_halted (v : Byte) : (s.setC v).halted = s.halted := rfl
@[simp] theorem State.setC_lastop (v : Byte) : (s.setC v).lastop = s.lastop := rfl

@[simp] theorem State.setD_a (v : Byte) : (s.setD v).a = s.a := rfl
@[simp] theorem State.setD_b (v : Byte) : (s.setD v).b = s.b := rfl
@[simp] theorem State.setD_c (v : Byte) : (s.setD v).c = s.c := rfl
@[simp] theorem State.setD_d (v : Byte) : (s.setD v).d = v := rfl
@[simp] theorem State.setD_e (v : Byte) : (s.setD v).e = s.e := rfl
@[simp] theorem State.setD_h (v : Byte) : (s.setD v).h = s.h := rfl
@[simp] theorem State.setD_l (v : Byte) : (s.setD v).l = s.l := rfl
@[simp] theorem State.setD_pc (v : Byte) : (s.setD v).pc = s.pc := rfl
@[simp] theorem State.setD_sp (v : Byte) : (s.setD v).sp = s.sp := rfl
@[simp] theorem State.setD_flagS (v : Byte) : (s.setD v).flagS = s.flagS := rfl
@[simp] theorem State.setD_flagZ (v : Byte) : (s.setD v).flagZ = s.flagZ := rfl
@[simp] theorem State.setD_flagAC (v : Byte) : (s.setD v).flagAC = s.flagAC := rfl
@[simp] theorem State.setD_flagP (v : Byte) : (s.setD v).flagP = s.flagP := rfl
@[simp] theorem State.setD_flagCF (v : Byte) : (s.setD v).flagCF = s.flagCF := rfl
@[simp] theorem State.setD_mem (v : Byte) : (s.setD v).mem = s.mem := rfl
@[simp] theorem State.setD_halted (v : Byte) : (s.setD v).halted = s.halted := rfl
@[simp] theorem State.setD_lastop (v : Byte) : (s.setD v).lastop = s.lastop := rfl

@[simp] theorem State.setE_a (v : Byte) : (s.setE v).a = s.a := rfl
@[simp] theorem State.setE_b (v : Byte) : (s.setE v).b = s.b := rfl
@[simp] theorem State.setE_c (v : Byte) : (s.setE v).c = s.c := rfl
@[simp] theorem State.setE_d (v : Byte) : (s.setE v).d = s.d := rfl
@[simp] theorem State.setE_e (v : Byte) : (s.setE v).e = v := rfl
@[simp] theorem State.setE_h (v : Byte) : (s.setE v).h = s.h := rfl
@[simp] theorem State.setE_l (v : Byte) : (s.setE v).l = s.l := rfl
@[simp] theorem State.setE_pc (v : Byte) : (s.setE v).pc = s.pc := rfl
@[simp] theorem State.setE_sp (v : Byte) : (s.setE v).sp = s.sp := rfl
@[simp] theorem State.setE_flagS (v : Byte) : (s.setE v).flagS = s.flagS := rfl
@[simp] theorem State.setE_flagZ (v : Byte) : (s.setE v).flagZ = s.flagZ := rfl
@[simp] theorem State.setE_flagAC (v : Byte) : (s.setE v).flagAC = s.flagAC := rfl
@[simp] theorem State.setE_flagP (v : Byte) : (s.setE v).flagP = s.flagP := rfl
@[simp] theorem State.setE_flagCF (v : Byte) : (s.setE v).flagCF = s.flagCF := rfl
@[simp] theorem State.setE_mem (v : Byte) : (s.setE v).mem = s.mem := rfl
@[simp] theorem State.setE_halted (v : Byte) : (s.setE v).halted = s.halted := rfl
@[simp] theorem State.setE_lastop (v : Byte) : (s.setE v).lastop = s.lastop := rfl

@[simp] theorem State.setH_a (v : Byte) : (s.setH v).a = s.a := rfl
@[simp] theorem State.setH_b (v : Byte) : (s.setH v).b = s.b := rfl
@[simp] theorem State.setH_c (v : Byte) : (s.setH v).c = s.c := rfl
@[simp] theorem State.setH_d (v : Byte) : (s.setH v).d = s.d := rfl
@[simp] theorem State.setH_e (v : Byte) : (s.setH v).e = s.e := rfl
@[simp] theorem State.setH_h (v : Byte) : (s.setH v).h = v := rfl
@[simp] theorem State.setH_l (v : Byte) : (s.setH v).l = s.l := rfl
@[simp] theorem State.setH_pc (v : Byte) : (s.setH v).pc = s.pc := rfl
@[simp] theorem State.setH_sp (v : Byte) : (s.setH v).sp = s.sp := rfl
@[simp] theorem State.setH_flagS (v : Byte) : (s.setH v).flagS = s.flagS := rfl
@[simp] theorem State.setH_flagZ (v : Byte) : (s.setH v).flagZ = s.flagZ := rfl
@[simp] theorem State.setH_flagAC (v : Byte) : (s.setH v).flagAC = s.flagAC := rfl
@[simp] theorem State.setH_flagP (v : Byte) : (s.setH v).flagP = s.flagP := rfl
@[simp] theorem State.setH_flagCF (v : Byte) : (s.setH v).flagCF = s.flagCF := rfl
@[simp] theorem State.setH_mem (v : Byte) : (s.setH v).mem = s.mem := rfl
@[simp] theorem State.setH_halted (v : Byte) : (s.setH v).halted = s.halted := rfl
@[simp] theorem State.setH_lastop (v : Byte) : (s.setH v).lastop = s.lastop := rfl

@[simp] theorem State.setL_a (v : Byte) : (s.setL v).a = s.a := rfl
@[simp] theorem State.setL_b (v : Byte) : (s.setL v).b = s.b := rfl
@[simp] theorem State.setL_c (v : Byte) : (s.setL v).c = s.c := rfl
@[simp] theorem State.setL_d (v : Byte) : (s.setL v).d = s.d := rfl
@[simp] theorem State.setL_e (v : Byte) : (s.setL v).e = s.e := rfl
@[simp] theorem State.setL_h (v : Byte) : (s.setL v).h = s.h := rfl
@[simp] theorem State.setL_l (v : Byte) : (s.setL v).l = v := rfl
@[simp] theorem State.setL_pc (v : Byte) : (s.setL v).pc = s.pc := rfl
@[simp] theorem State.setL_sp (v : Byte) : (s.setL v).sp = s.sp := rfl
@[simp] theorem State.setL_flagS (v : Byte) : (s.setL v).flagS = s.flagS := rfl
@[simp] theorem State.setL_flagZ (v : Byte) : (s.setL v).flagZ = s.flagZ := rfl
@[simp] theorem State.setL_flagAC (v : Byte) : (s.setL v).flagAC = s.flagAC := rfl
@[simp] theorem State.setL_flagP (v : Byte) : (s.setL v).flagP = s.flagP := rfl
@[simp] theorem State.setL_flagCF (v : Byte) : (s.setL v).flagCF = s.flagCF := rfl
@[simp] theorem State.setL_mem (v : Byte) : (s.setL v).mem = s.mem := rfl
@[simp] theorem State.setL_halted (v : Byte) : (s.setL v).halted = s.halted := rfl
@[simp] theorem State.setL_lastop (v : Byte) : (s.setL v).lastop = s.lastop := rfl

@[simp] theorem State.setPc_a (v : Word) : (s.setPc v).a = s.a := rfl
@[simp] theorem State.setPc_b (v : Word) : (s.setPc v).b = s.b := rfl
@[simp] theorem State.setPc_c (v : Word) : (s.setPc v).c = s.c := rfl
@[simp] theorem State.setPc_d (v : Word) : (s.setPc v).d = s.d := rfl
@[simp] theorem State.setPc_e (v : Word) : (s.setPc v).e = s.e := rfl
@[simp] theorem State.setPc_h (v : Word) : (s.setPc v).h = s.h := rfl
@[simp] theorem State.setPc_l (v : Word) : (s.setPc v).l = s.l := rfl
@[simp] theorem State.setPc_pc (v : Word) : (s.setPc v).pc = v := rfl
@[simp] theorem State.setPc_sp (v : Word) : (s.setPc v).sp = s.sp := rfl
@[simp] theorem State.setPc_flagS (v : Word) : (s.setPc v).flagS = s.flagS := rfl
@[simp] theorem State.setPc_flagZ (v : Word) : (s.setPc v).flagZ = s.flagZ := rfl
@[simp] theorem State.setPc_flagAC (v : Word) : (s.setPc v).flagAC = s.flagAC := rfl
@[simp] theorem State.setPc_flagP (v : Word) : (s.setPc v).flagP = s.flagP := rfl
@[simp] theorem State.setPc_flagCF (v : Word) : (s.setPc v).flagCF = s.flagCF := rfl
@[simp] theorem State.setPc_mem (v : Word) : (s.setPc v).mem = s.mem := rfl
@[simp] theorem State.setPc_halted (v : Word) : (s.setPc v).halted = s.halted := rfl
@[simp] theorem State.setPc_lastop (v : Word) : (s.setPc v).lastop = s.lastop := rfl

@[simp] theorem State.setSp_a (v : Word) : (s.setSp v).a = s.a := rfl
@[simp] theorem State.setSp_b (v : Word) : (s.setSp v).b = s.b := rfl
@[simp] theorem State.setSp_c (v : Word) : (s.setSp v).c = s.c := rfl
@[simp] theorem State.setSp_d (v : Word) : (s.setSp v).d = s.d := rfl
@[simp] theorem State.setSp_e (v : Word) : (s.setSp v).e = s.e := rfl
@[simp] theorem State.setSp_h (v : Word) : (s.setSp v).h = s.h := rfl
@[simp] theorem State.setSp_l (v : Word) : (s.setSp v).l = s.l := rfl
@[simp] theorem State.setSp_pc (v : Word) : (s.setSp v).pc = s.pc := rfl
@[simp] theorem State.setSp_sp (v : Word) : (s.setSp v).sp = v := rfl
@[simp] theorem State.setSp_flagS (v : Word) : (s.setSp v).flagS = s.flagS := rfl
@[simp] theorem State.setSp_flagZ (v : Word) : (s.setSp v).flagZ = s.flagZ := rfl
@[simp] theorem State.setSp_flagAC (v : Word) : (s.setSp v).flagAC = s.flagAC := rfl
@[simp] theorem State.setSp_flagP (v : Word) : (s.setSp v).flagP = s.flagP := rfl
@[simp] theorem State.setSp_flagCF (v : Word) : (s.setSp v).flagCF = s.flagCF := rfl
@[simp] theorem State.setSp_mem (v : Word) : (s.setSp v).mem = s.mem := rfl
@[simp] theorem State.setSp_halted (v : Word) : (s.setSp v).halted = s.halted := rfl
@[simp] theorem State.setSp_lastop (v : Word) : (s.setSp v).lastop = s.lastop := rfl

@[simp] theorem State.setS_a (v : Bool) : (s.setS v).a = s.a := rfl
@[simp] theorem State.setS_b (v : Bool) : (s.setS v).b = s.b := rfl
@[simp] theorem State.setS_c (v : Bool) : (s.setS v).c = s.c := rfl
@[simp] theorem State.setS_d (v : Bool) : (s.setS v).d = s.d := rfl
@[simp] theorem State.setS_e (v : Bool) : (s.setS v).e = s.e := rfl
@[simp] theorem State.setS_h (v : Bool) : (s.setS v).h = s.h := rfl
@[simp] theorem State.setS_l (v : Bool) : (s.setS v).l = s.l := rfl
@[simp] theorem State.setS_pc (v : Bool) : (s.setS v).pc = s.pc := rfl
@[simp] theorem State.setS_sp (v : Bool) : (s.setS v).sp = s.sp := rfl
@[simp] theorem State.setS_flagS (v : Bool) : (s.setS v).flagS = v := rfl
@[simp] theorem State.setS_flagZ (v : Bool) : (s.setS v).flagZ = s.flagZ := rfl
@[simp] theorem State.setS_flagAC (v : Bool) : (s.setS v).flagAC = s.flagAC := rfl
@[simp] theorem State.setS_flagP (v : Bool) : (s.setS v).flagP = s.flagP := rfl
@[simp] theorem State.setS_flagCF (v : Bool) : (s.setS v).flagCF = s.flagCF := rfl
@[simp] theorem State.setS_mem (v : Bool) : (s.setS v).mem = s.mem := rfl
@[simp] theorem State.setS_halted (v : Bool) : (s.setS v).halted = s.halted := rfl
@[simp] theorem State.setS_lastop (v : Bool) : (s.setS v).lastop = s.lastop := rfl

@[simp] theorem State.setZ_a (v : Bool) : (s.setZ v).a = s.a := rfl
@[simp] theorem State.setZ_b (v : Bool) : (s.setZ v).b = s.b := rfl
@[simp] theorem State.setZ_c (v : Bool) : (s.setZ v).c = s.c := rfl
@[simp] theorem State.setZ_d (v : Bool) : (s.setZ v).d = s.d := rfl
@[simp] theorem State.setZ_e (v : Bool) : (s.setZ v).e = s.e := rfl
@[simp] theorem State.setZ_h (v : Bool) : (s.setZ v).h = s.h := rfl
@[simp] theorem State.setZ_l (v : Bool) : (s.setZ v).l = s.l := rfl
@[simp] theorem State.setZ_pc (v : Bool) : (s.setZ v).pc = s.pc := rfl
@[simp] theorem State.setZ_sp (v : Bool) : (s.setZ v).sp = s.sp := rfl
@[simp] theorem State.setZ_flagS (v : Bool) : (s.setZ v).flagS = s.flagS := rfl
@[simp] theorem State.setZ_flagZ (v : Bool) : (s.setZ v).flagZ = v := rfl
@[simp] theorem State.setZ_flagAC (v : Bool) : (s.setZ v).flagAC = s.flagAC := rfl
@[simp] theorem State.setZ_flagP (v : Bool) : (s.setZ v).flagP = s.flagP := rfl
@[simp] theorem State.setZ_flagCF (v : Bool) : (s.setZ v).flagCF = s.flagCF := rfl
@[simp] theorem State.setZ_mem (v : Bool) : (s.setZ v).mem = s.mem := rfl
@[simp] theorem State.setZ_halted (v : Bool) : (s.setZ v).halted = s.halted := rfl
@[simp] theorem State.setZ_lastop (v : Bool) : (s.setZ v).lastop = s.lastop := rfl

@[simp] theorem State.setAC_a (v : Bool) : (s.setAC v).a = s.a := rfl
@[simp] theorem State.setAC_b (v : Bool) : (s.setAC v).b = s.b := rfl
@[simp] theorem State.setAC_c (v : Bool) : (s.setAC v).c = s.c := rfl
@[simp] theorem State.setAC_d (v : Bool) : (s.setAC v).d = s.d := rfl
@[simp] theorem State.setAC_e (v : Bool) : (s.setAC v).e = s.e := rfl
@[simp] theorem State.setAC_h (v : Bool) : (s.setAC v).h = s.h := rfl
@[simp] theorem State.setAC_l (v : Bool) : (s.setAC v).l = s.l := rfl
@[simp] theorem State.setAC_pc (v : Bool) : (s.setAC v).pc = s.pc := rfl
@[simp] theorem State.setAC_sp (v : Bool) : (s.setAC v).sp = s.sp := rfl
@[simp] theorem State.setAC_flagS (v : Bool) : (s.setAC v).flagS = s.flagS := rfl
@[simp] theorem State.setAC_flagZ (v : Bool) : (s.setAC v).flagZ = s.flagZ := rfl
@[simp] theorem State.setAC_flagAC (v : Bool) : (s.setAC v).flagAC = v := rfl
@[simp] theorem State.setAC_flagP (v : Bool) : (s.setAC v).flagP = s.flagP := rfl
@[simp] theorem State.setAC_flagCF (v : Bool) : (s.setAC v).flagCF = s.flagCF := rfl
@[simp] theorem State.setAC_mem (v : Bool) : (s.setAC v).mem = s.mem := rfl
@[simp] theorem State.setAC_halted (v : Bool) : (s.setAC v).halted = s.halted := rfl
@[simp] theorem State.setAC_lastop (v : Bool) : (s.setAC v).lastop = s.lastop := rfl

@[simp] theorem State.setP_a (v : Bool) : (s.setP v).a = s.a := rfl
@[simp] theorem State.setP_b (v : Bool) : (s.setP v).b = s.b := rfl
@[simp] theorem State.setP_c (v : Bool) : (s.setP v).c = s.c := rfl
@[simp] theorem State.setP_d (v : Bool) : (s.setP v).d = s.d := rfl
@[simp] theorem State.setP_e (v : Bool) : (s.setP v).e = s.e := rfl
@[simp] theorem State.setP_h (v : Bool) : (s.setP v).h = s.h := rfl
@[simp] theorem State.setP_l (v : Bool) : (s.setP v).l = s.l := rfl
@[simp] theorem State.setP_pc (v : Bool) : (s.setP v).pc = s.pc := rfl
@[simp] theorem State.setP_sp (v : Bool) : (s.setP v).sp = s.sp := rfl
@[simp] theorem State.setP_flagS (v : Bool) : (s.setP v).flagS = s.flagS := rfl
@[simp] theorem State.setP_flagZ (v : Bool) : (s.setP v).flagZ = s.flagZ := rfl
@[simp] theorem State.setP_flagAC (v : Bool) : (s.setP v).flagAC = s.flagAC := rfl
@[simp] theorem State.setP_flagP (v : Bool) : (s.setP v).flagP = v := rfl
@[simp] theorem State.setP_flagCF (v : Bool) : (s.setP v).flagCF = s.flagCF := rfl
@[simp] theorem State.setP_mem (v : Bool) : (s.setP v).mem = s.mem := rfl
@[simp] theorem State.setP_halted (v : Bool) : (s.setP v).halted = s.halted := rfl
@[simp] theorem State.setP_lastop (v : Bool) : (s.setP v).lastop = s.lastop := rfl

@[simp] theorem State.setCF_a (v : Bool) : (s.setCF v).a = s.a := rfl
@[simp] theorem State.setCF_b (v : Bool) : (s.setCF v).b = s.b := rfl
@[simp] theorem State.setCF_c (v : Bool) : (s.setCF v).c = s.c := rfl
@[simp] theorem State.setCF_d (v : Bool) : (s.setCF v).d = s.d := rfl
@[simp] theorem State.setCF_e (v : Bool) : (s.setCF v).e = s.e := rfl
@[simp] theorem State.setCF_h (v : Bool) : (s.setCF v).h = s.h := rfl
@[simp] theorem State.setCF_l (v : Bool) : (s.setCF v).l = s.l := rfl
@[simp] theorem State.setCF_pc (v : Bool) : (s.setCF v).pc = s.pc := rfl
@[simp] theorem State.setCF_sp (v : Bool) : (s.setCF v).sp = s.sp := rfl
@[simp] theorem State.setCF_flagS (v : Bool) : (s.setCF v).flagS = s.flagS := rfl
@[simp] theorem State.setCF_flagZ (v : Bool) : (s.setCF v).flagZ = s.flagZ := rfl
@[simp] theorem State.setCF_flagAC (v : Bool) : (s.setCF v).flagAC = s.flagAC := rfl
@[simp] theorem State.setCF_flagP (v : Bool) : (s.setCF v).flagP = s.flagP := rfl
@[simp] theorem State.setCF_flagCF (v : Bool) : (s.setCF v).flagCF = v := rfl
@[simp] theorem State.setCF_mem (v : Bool) : (s.setCF v).mem = s.mem := rfl
@[simp] theorem State.setCF_halted (v : Bool) : (s.setCF v).halted = s.halted := rfl
@[simp] theorem State.setCF_lastop (v : Bool) : (s.setCF v).lastop = s.lastop := rfl

@[simp] theorem State.setMem_a (v : Memory) : (s.setMem v).a = s.a := rfl
@[simp] theorem State.setMem_b (v : Memory) : (s.setMem v).b = s.b := rfl
@[simp] theorem State.setMem_c (v : Memory) : (s.setMem v).c = s.c := rfl
@[simp] theorem State.setMem_d (v : Memory) : (s.setMem v).d = s.d := rfl
@[simp] theorem State.setMem_e (v : Memory) : (s.setMem v).e = s.e := rfl
@[simp] theorem State.setMem_h (v : Memory) : (s.setMem v).h = s.h := rfl
@[simp] theorem State.setMem_l (v : Memory) : (s.setMem v).l = s.l := rfl
@[simp] theorem State.setMem_pc (v : Memory) : (s.setMem v).pc = s.pc := rfl
@[simp] theorem State.setMem_sp (v : Memory) : (s.setMem v).sp = s.sp := rfl
@[simp] theorem State.setMem_flagS (v : Memory) : (s.setMem v).flagS = s.flagS := rfl
@[simp] theorem State.setMem_flagZ (v : Memory) : (s.setMem v).flagZ = s.flagZ := rfl
@[simp] theorem State.setMem_flagAC (v : Memory) : (s.setMem v).flagAC = s.flagAC := rfl
@[simp] theorem State.setMem_flagP (v : Memory) : (s.setMem v).flagP = s.flagP := rfl
@[simp] theorem State.setMem_flagCF (v : Memory) : (s.setMem v).flagCF = s.flagCF := rfl
@[simp] theorem State.setMem_mem (v : Memory) : (s.setMem v).mem = v := rfl
@[simp] theorem State.setMem_halted (v : Memory) : (s.setMem v).halted = s.halted := rfl
@[simp] theorem State.setMem_lastop (v : Memory) : (s.setMem v).lastop = s.lastop := rfl

@[simp] theorem State.setHalted_a (v : Bool) : (s.setHalted v).a = s.a := rfl
@[simp] theorem State.setHalted_b (v : Bool) : (s.setHalted v).b = s.b := rfl
@[simp] theorem State.setHalted_c (v : Bool) : (s.setHalted v).c = s.c := rfl
@[simp] theorem State.setHalted_d (v : Bool) : (s.setHalted v).d = s.d := rfl
@[simp] theorem State.setHalted_e (v : Bool) : (s.setHalted v).e = s.e := rfl
@[simp] theorem State.setHalted_h (v : Bool) : (s.setHalted v).h = s.h := rfl
@[simp] theorem State.setHalted_l (v : Bool) : (s.setHalted v).l = s.l := rfl
@[simp] theorem State.setHalted_pc (v : Bool) : (s.setHalted v).pc = s.pc := rfl
@[simp] theorem State.setHalted_sp (v : Bool) : (s.setHalted v).sp = s.sp := rfl
@[simp] theorem State.setHalted_flagS (v : Bool) : (s.setHalted v).flagS = s.flagS := rfl
@[simp] theorem State.setHalted_flagZ (v : Bool) : (s.setHalted v).flagZ = s.flagZ := rfl
@[simp] theorem State.setHalted_flagAC (v : Bool) : (s.setHalted v).flagAC = s.flagAC := rfl
@[simp] theorem State.setHalted_flagP (v : Bool) : (s.setHalted v).flagP = s.flagP := rfl
@[simp] theorem State.setHalted_flagCF (v : Bool) : (s.setHalted v).flagCF = s.flagCF := rfl
@[simp] theorem State.setHalted_mem (v : Bool) : (s.setHalted v).mem = s.mem := rfl
@[simp] theorem State.setHalted_halted (v : Bool) : (s.setHalted v).halted = v := rfl
@[simp] theorem State.setHalted_lastop (v : Bool) : (s.setHalted v).lastop = s.lastop := rfl

@[simp] theorem State.setLastop_a (v : Option Byte) : (s.setLastop v).a = s.a := rfl
@[simp] theorem State.setLastop_b (v : Option Byte) : (s.setLastop v).b = s.b := rfl
@[simp] theorem State.setLastop_c (v : Option Byte) : (s.setLastop v).c = s.c := rfl
@[simp] theorem State.setLastop_d (v : Option Byte) : (s.setLastop v).d = s.d := rfl
@[simp] theorem State.setLastop_e (v : Option Byte) : (s.setLastop v).e = s.e := rfl
@[simp] theorem State.setLastop_h (v : Option Byte) : (s.setLastop v).h = s.h := rfl
@[simp] theorem State.setLastop_l (v : Option Byte) : (s.setLastop v).l = s.l := rfl
@[simp] theorem State.setLastop_pc (v : Option Byte) : (s.setLastop v).pc = s.pc := rfl
@[simp] theorem State.setLastop_sp (v : Option Byte) : (s.setLastop v).sp = s.sp := rfl
@[simp] theorem State.setLastop_flagS (v : Option Byte) : (s.setLastop v).flagS = s.flagS := rfl
@[simp] theorem State.setLastop_flagZ (v : Option Byte) : (s.setLastop v).flagZ = s.flagZ := rfl
@[simp] theorem State.setLastop_flagAC (v : Option Byte) : (s.setLastop v).flagAC = s.flagAC := rfl
@[simp] theorem State.setLastop_flagP (v : Option Byte) : (s.setLastop v).flagP = s.flagP := rfl
@[simp] theorem State.setLastop_flagCF (v : Option Byte) : (s.setLastop v).flagCF = s.flagCF := rfl
@[simp] theorem State.setLastop_mem (v : Option Byte) : (s.setLastop v).mem = s.mem := rfl
@[simp] theorem State.setLastop_halted (v : Option Byte) : (s.setLastop v).halted = s.halted := rfl
@[simp] theorem State.setLastop_lastop (v : Option Byte) : (s.setLastop v).lastop = v := rfl

end

end Sys2Proof.Machine
end

