-- ==== Sys2Proof/Laws/Ops.lean ====
section
/-! SUPPORT. What each shared operation leaves unchanged and what it sets, so that no proof unfolds it. -/

namespace Sys2Proof.Machine

section

variable (s : State)

/-! ## Memory write, program counter, opcode note -/

@[simp] theorem State.write_a (addr : Word) (v : Byte) : (s.write addr v).a = s.a := rfl
@[simp] theorem State.write_b (addr : Word) (v : Byte) : (s.write addr v).b = s.b := rfl
@[simp] theorem State.write_c (addr : Word) (v : Byte) : (s.write addr v).c = s.c := rfl
@[simp] theorem State.write_d (addr : Word) (v : Byte) : (s.write addr v).d = s.d := rfl
@[simp] theorem State.write_e (addr : Word) (v : Byte) : (s.write addr v).e = s.e := rfl
@[simp] theorem State.write_h (addr : Word) (v : Byte) : (s.write addr v).h = s.h := rfl
@[simp] theorem State.write_l (addr : Word) (v : Byte) : (s.write addr v).l = s.l := rfl
@[simp] theorem State.write_pc (addr : Word) (v : Byte) : (s.write addr v).pc = s.pc := rfl
@[simp] theorem State.write_sp (addr : Word) (v : Byte) : (s.write addr v).sp = s.sp := rfl
@[simp] theorem State.write_flagS (addr : Word) (v : Byte) : (s.write addr v).flagS = s.flagS := rfl
@[simp] theorem State.write_flagZ (addr : Word) (v : Byte) : (s.write addr v).flagZ = s.flagZ := rfl
@[simp] theorem State.write_flagAC (addr : Word) (v : Byte) : (s.write addr v).flagAC = s.flagAC := rfl
@[simp] theorem State.write_flagP (addr : Word) (v : Byte) : (s.write addr v).flagP = s.flagP := rfl
@[simp] theorem State.write_flagCF (addr : Word) (v : Byte) : (s.write addr v).flagCF = s.flagCF := rfl
@[simp] theorem State.write_mem (addr : Word) (v : Byte) : (s.write addr v).mem = Memory.write s.mem addr v := rfl
@[simp] theorem State.write_halted (addr : Word) (v : Byte) : (s.write addr v).halted = s.halted := rfl
@[simp] theorem State.write_lastop (addr : Word) (v : Byte) : (s.write addr v).lastop = s.lastop := rfl

@[simp] theorem State.advance_a (n : Nat) : (s.advance n).a = s.a := rfl
@[simp] theorem State.advance_b (n : Nat) : (s.advance n).b = s.b := rfl
@[simp] theorem State.advance_c (n : Nat) : (s.advance n).c = s.c := rfl
@[simp] theorem State.advance_d (n : Nat) : (s.advance n).d = s.d := rfl
@[simp] theorem State.advance_e (n : Nat) : (s.advance n).e = s.e := rfl
@[simp] theorem State.advance_h (n : Nat) : (s.advance n).h = s.h := rfl
@[simp] theorem State.advance_l (n : Nat) : (s.advance n).l = s.l := rfl
@[simp] theorem State.advance_pc (n : Nat) : (s.advance n).pc = s.pc + BitVec.ofNat 16 n := rfl
@[simp] theorem State.advance_sp (n : Nat) : (s.advance n).sp = s.sp := rfl
@[simp] theorem State.advance_flagS (n : Nat) : (s.advance n).flagS = s.flagS := rfl
@[simp] theorem State.advance_flagZ (n : Nat) : (s.advance n).flagZ = s.flagZ := rfl
@[simp] theorem State.advance_flagAC (n : Nat) : (s.advance n).flagAC = s.flagAC := rfl
@[simp] theorem State.advance_flagP (n : Nat) : (s.advance n).flagP = s.flagP := rfl
@[simp] theorem State.advance_flagCF (n : Nat) : (s.advance n).flagCF = s.flagCF := rfl
@[simp] theorem State.advance_mem (n : Nat) : (s.advance n).mem = s.mem := rfl
@[simp] theorem State.advance_halted (n : Nat) : (s.advance n).halted = s.halted := rfl
@[simp] theorem State.advance_lastop (n : Nat) : (s.advance n).lastop = s.lastop := rfl

@[simp] theorem State.noteOpcode_a : (s.noteOpcode).a = s.a := rfl
@[simp] theorem State.noteOpcode_b : (s.noteOpcode).b = s.b := rfl
@[simp] theorem State.noteOpcode_c : (s.noteOpcode).c = s.c := rfl
@[simp] theorem State.noteOpcode_d : (s.noteOpcode).d = s.d := rfl
@[simp] theorem State.noteOpcode_e : (s.noteOpcode).e = s.e := rfl
@[simp] theorem State.noteOpcode_h : (s.noteOpcode).h = s.h := rfl
@[simp] theorem State.noteOpcode_l : (s.noteOpcode).l = s.l := rfl
@[simp] theorem State.noteOpcode_pc : (s.noteOpcode).pc = s.pc := rfl
@[simp] theorem State.noteOpcode_sp : (s.noteOpcode).sp = s.sp := rfl
@[simp] theorem State.noteOpcode_flagS : (s.noteOpcode).flagS = s.flagS := rfl
@[simp] theorem State.noteOpcode_flagZ : (s.noteOpcode).flagZ = s.flagZ := rfl
@[simp] theorem State.noteOpcode_flagAC : (s.noteOpcode).flagAC = s.flagAC := rfl
@[simp] theorem State.noteOpcode_flagP : (s.noteOpcode).flagP = s.flagP := rfl
@[simp] theorem State.noteOpcode_flagCF : (s.noteOpcode).flagCF = s.flagCF := rfl
@[simp] theorem State.noteOpcode_mem : (s.noteOpcode).mem = s.mem := rfl
@[simp] theorem State.noteOpcode_halted : (s.noteOpcode).halted = s.halted := rfl
@[simp] theorem State.noteOpcode_lastop : (s.noteOpcode).lastop = some s.opcode := rfl

/-! ## Flags -/

@[simp] theorem State.setZSP_a (v : Byte) : (s.setZSP v).a = s.a := rfl
@[simp] theorem State.setZSP_b (v : Byte) : (s.setZSP v).b = s.b := rfl
@[simp] theorem State.setZSP_c (v : Byte) : (s.setZSP v).c = s.c := rfl
@[simp] theorem State.setZSP_d (v : Byte) : (s.setZSP v).d = s.d := rfl
@[simp] theorem State.setZSP_e (v : Byte) : (s.setZSP v).e = s.e := rfl
@[simp] theorem State.setZSP_h (v : Byte) : (s.setZSP v).h = s.h := rfl
@[simp] theorem State.setZSP_l (v : Byte) : (s.setZSP v).l = s.l := rfl
@[simp] theorem State.setZSP_pc (v : Byte) : (s.setZSP v).pc = s.pc := rfl
@[simp] theorem State.setZSP_sp (v : Byte) : (s.setZSP v).sp = s.sp := rfl
@[simp] theorem State.setZSP_flagS (v : Byte) : (s.setZSP v).flagS = v.getLsbD 7 := rfl
@[simp] theorem State.setZSP_flagZ (v : Byte) : (s.setZSP v).flagZ = (v == 0x00) := rfl
@[simp] theorem State.setZSP_flagAC (v : Byte) : (s.setZSP v).flagAC = s.flagAC := rfl
@[simp] theorem State.setZSP_flagP (v : Byte) : (s.setZSP v).flagP = parity8 v := by
  rw [State.setZSP, State.setP_flagP]
@[simp] theorem State.setZSP_flagCF (v : Byte) : (s.setZSP v).flagCF = s.flagCF := rfl
@[simp] theorem State.setZSP_mem (v : Byte) : (s.setZSP v).mem = s.mem := rfl
@[simp] theorem State.setZSP_halted (v : Byte) : (s.setZSP v).halted = s.halted := rfl
@[simp] theorem State.setZSP_lastop (v : Byte) : (s.setZSP v).lastop = s.lastop := rfl

@[simp] theorem State.noteAC_a (new : Bool) : (s.noteAC new).a = s.a := rfl
@[simp] theorem State.noteAC_b (new : Bool) : (s.noteAC new).b = s.b := rfl
@[simp] theorem State.noteAC_c (new : Bool) : (s.noteAC new).c = s.c := rfl
@[simp] theorem State.noteAC_d (new : Bool) : (s.noteAC new).d = s.d := rfl
@[simp] theorem State.noteAC_e (new : Bool) : (s.noteAC new).e = s.e := rfl
@[simp] theorem State.noteAC_h (new : Bool) : (s.noteAC new).h = s.h := rfl
@[simp] theorem State.noteAC_l (new : Bool) : (s.noteAC new).l = s.l := rfl
@[simp] theorem State.noteAC_pc (new : Bool) : (s.noteAC new).pc = s.pc := rfl
@[simp] theorem State.noteAC_sp (new : Bool) : (s.noteAC new).sp = s.sp := rfl
@[simp] theorem State.noteAC_flagS (new : Bool) : (s.noteAC new).flagS = s.flagS := rfl
@[simp] theorem State.noteAC_flagZ (new : Bool) : (s.noteAC new).flagZ = s.flagZ := rfl
@[simp] theorem State.noteAC_flagAC (new : Bool) : (s.noteAC new).flagAC = acUnder Config.acPolicy new s.flagAC := rfl
@[simp] theorem State.noteAC_flagP (new : Bool) : (s.noteAC new).flagP = s.flagP := rfl
@[simp] theorem State.noteAC_flagCF (new : Bool) : (s.noteAC new).flagCF = s.flagCF := rfl
@[simp] theorem State.noteAC_mem (new : Bool) : (s.noteAC new).mem = s.mem := rfl
@[simp] theorem State.noteAC_halted (new : Bool) : (s.noteAC new).halted = s.halted := rfl
@[simp] theorem State.noteAC_lastop (new : Bool) : (s.noteAC new).lastop = s.lastop := rfl

/-! ## Slots and pairs -/

@[simp] theorem State.writeOp_pc (r : RegSel) (v : Byte) : (s.writeOp r v).pc = s.pc := by cases r <;> rfl
@[simp] theorem State.writeOp_sp (r : RegSel) (v : Byte) : (s.writeOp r v).sp = s.sp := by cases r <;> rfl
@[simp] theorem State.writeOp_flagS (r : RegSel) (v : Byte) : (s.writeOp r v).flagS = s.flagS := by cases r <;> rfl
@[simp] theorem State.writeOp_flagZ (r : RegSel) (v : Byte) : (s.writeOp r v).flagZ = s.flagZ := by cases r <;> rfl
@[simp] theorem State.writeOp_flagAC (r : RegSel) (v : Byte) : (s.writeOp r v).flagAC = s.flagAC := by cases r <;> rfl
@[simp] theorem State.writeOp_flagP (r : RegSel) (v : Byte) : (s.writeOp r v).flagP = s.flagP := by cases r <;> rfl
@[simp] theorem State.writeOp_flagCF (r : RegSel) (v : Byte) : (s.writeOp r v).flagCF = s.flagCF := by cases r <;> rfl
@[simp] theorem State.writeOp_halted (r : RegSel) (v : Byte) : (s.writeOp r v).halted = s.halted := by cases r <;> rfl
@[simp] theorem State.writeOp_lastop (r : RegSel) (v : Byte) : (s.writeOp r v).lastop = s.lastop := by cases r <;> rfl

@[simp] theorem State.writePair_a (rp : RegPair) (v : Word) : (s.writePair rp v).a = s.a := by cases rp <;> rfl
@[simp] theorem State.writePair_pc (rp : RegPair) (v : Word) : (s.writePair rp v).pc = s.pc := by cases rp <;> rfl
@[simp] theorem State.writePair_flagS (rp : RegPair) (v : Word) : (s.writePair rp v).flagS = s.flagS := by cases rp <;> rfl
@[simp] theorem State.writePair_flagZ (rp : RegPair) (v : Word) : (s.writePair rp v).flagZ = s.flagZ := by cases rp <;> rfl
@[simp] theorem State.writePair_flagAC (rp : RegPair) (v : Word) : (s.writePair rp v).flagAC = s.flagAC := by cases rp <;> rfl
@[simp] theorem State.writePair_flagP (rp : RegPair) (v : Word) : (s.writePair rp v).flagP = s.flagP := by cases rp <;> rfl
@[simp] theorem State.writePair_flagCF (rp : RegPair) (v : Word) : (s.writePair rp v).flagCF = s.flagCF := by cases rp <;> rfl
@[simp] theorem State.writePair_mem (rp : RegPair) (v : Word) : (s.writePair rp v).mem = s.mem := by cases rp <;> rfl
@[simp] theorem State.writePair_halted (rp : RegPair) (v : Word) : (s.writePair rp v).halted = s.halted := by cases rp <;> rfl
@[simp] theorem State.writePair_lastop (rp : RegPair) (v : Word) : (s.writePair rp v).lastop = s.lastop := by cases rp <;> rfl

@[simp] theorem State.storeResult_b (op : AluOp) (res : Byte) : (s.storeResult op res).b = s.b := by cases op <;> rfl
@[simp] theorem State.storeResult_c (op : AluOp) (res : Byte) : (s.storeResult op res).c = s.c := by cases op <;> rfl
@[simp] theorem State.storeResult_d (op : AluOp) (res : Byte) : (s.storeResult op res).d = s.d := by cases op <;> rfl
@[simp] theorem State.storeResult_e (op : AluOp) (res : Byte) : (s.storeResult op res).e = s.e := by cases op <;> rfl
@[simp] theorem State.storeResult_h (op : AluOp) (res : Byte) : (s.storeResult op res).h = s.h := by cases op <;> rfl
@[simp] theorem State.storeResult_l (op : AluOp) (res : Byte) : (s.storeResult op res).l = s.l := by cases op <;> rfl
@[simp] theorem State.storeResult_pc (op : AluOp) (res : Byte) : (s.storeResult op res).pc = s.pc := by cases op <;> rfl
@[simp] theorem State.storeResult_sp (op : AluOp) (res : Byte) : (s.storeResult op res).sp = s.sp := by cases op <;> rfl
@[simp] theorem State.storeResult_flagS (op : AluOp) (res : Byte) : (s.storeResult op res).flagS = s.flagS := by cases op <;> rfl
@[simp] theorem State.storeResult_flagZ (op : AluOp) (res : Byte) : (s.storeResult op res).flagZ = s.flagZ := by cases op <;> rfl
@[simp] theorem State.storeResult_flagAC (op : AluOp) (res : Byte) : (s.storeResult op res).flagAC = s.flagAC := by cases op <;> rfl
@[simp] theorem State.storeResult_flagP (op : AluOp) (res : Byte) : (s.storeResult op res).flagP = s.flagP := by cases op <;> rfl
@[simp] theorem State.storeResult_flagCF (op : AluOp) (res : Byte) : (s.storeResult op res).flagCF = s.flagCF := by cases op <;> rfl
@[simp] theorem State.storeResult_mem (op : AluOp) (res : Byte) : (s.storeResult op res).mem = s.mem := by cases op <;> rfl
@[simp] theorem State.storeResult_halted (op : AluOp) (res : Byte) : (s.storeResult op res).halted = s.halted := by cases op <;> rfl
@[simp] theorem State.storeResult_lastop (op : AluOp) (res : Byte) : (s.storeResult op res).lastop = s.lastop := by cases op <;> rfl

/-- `WriteOp` as one statement: a register slot sets its register, slot `m` writes memory at `HL` (10_state.md R21). -/
theorem State.writeOp_cases (r : RegSel) (v : Byte) :
    (r ≠ .m ∧ (s.writeOp r v).mem = s.mem ∧ (s.writeOp r v).readOp r = v) ∨
      (r = .m ∧ s.writeOp r v = s.write s.hl v) := by
  cases r
  case m => exact .inr ⟨rfl, rfl⟩
  all_goals exact .inl ⟨nofun, rfl, rfl⟩

/-- A register other than the one written keeps its value; `r'` ranges over the register slots. -/
theorem State.writeOp_readOp_ne (r r' : RegSel) (v : Byte) (hne : r' ≠ r) (hm : r' ≠ .m) :
    (s.writeOp r v).readOp r' = s.readOp r' := by
  cases r <;> cases r' <;> first | rfl | exact absurd rfl hne | exact absurd rfl hm

/-- The accumulator after the ALU group (45_alu.md R80): a compare keeps it. -/
theorem State.storeResult_a (op : AluOp) (res : Byte) :
    (s.storeResult op res).a = if op = .cmp then s.a else res := by
  cases op <;> rfl

/-- What the ALU group does, field by field (45_alu.md R79, R80). -/
theorem State.aluStep_eq (op : AluOp) (r : RegSel) :
    let t := aluT op s.a (s.readOp r) s.flagCF
    s.aluStep op r =
      { s with
        a := if op = .cmp then s.a else t.setWidth 8
        pc := s.pc + 1
        flagS := (t.setWidth 8).getLsbD 7
        flagZ := t.setWidth 8 == (0x00 : Byte)
        flagP := parity8 (t.setWidth 8)
        flagCF := t.getLsbD 8
        flagAC := acUnder Config.acPolicy (aluAC op s.a (s.readOp r) s.flagCF) s.flagAC } := by
  intro t
  ext1 <;> simp [State.aluStep, State.storeResult_a, t]

/-! ## The two shared meanings, field by field -/

@[simp] theorem State.aluStep_b (op : AluOp) (r : RegSel) :
    (s.aluStep op r).b = s.b := by
  simp [State.aluStep]

@[simp] theorem State.aluStep_c (op : AluOp) (r : RegSel) :
    (s.aluStep op r).c = s.c := by
  simp [State.aluStep]

@[simp] theorem State.aluStep_d (op : AluOp) (r : RegSel) :
    (s.aluStep op r).d = s.d := by
  simp [State.aluStep]

@[simp] theorem State.aluStep_e (op : AluOp) (r : RegSel) :
    (s.aluStep op r).e = s.e := by
  simp [State.aluStep]

@[simp] theorem State.aluStep_h (op : AluOp) (r : RegSel) :
    (s.aluStep op r).h = s.h := by
  simp [State.aluStep]

@[simp] theorem State.aluStep_l (op : AluOp) (r : RegSel) :
    (s.aluStep op r).l = s.l := by
  simp [State.aluStep]

@[simp] theorem State.aluStep_pc (op : AluOp) (r : RegSel) :
    (s.aluStep op r).pc = s.pc + 1#16 := by
  simp [State.aluStep]

@[simp] theorem State.aluStep_sp (op : AluOp) (r : RegSel) :
    (s.aluStep op r).sp = s.sp := by
  simp [State.aluStep]

@[simp] theorem State.aluStep_flagCF (op : AluOp) (r : RegSel) :
    (s.aluStep op r).flagCF = (aluT op s.a (s.readOp r) s.flagCF).getLsbD 8 := by
  simp [State.aluStep]

@[simp] theorem State.aluStep_mem (op : AluOp) (r : RegSel) :
    (s.aluStep op r).mem = s.mem := by
  simp [State.aluStep]

@[simp] theorem State.aluStep_halted (op : AluOp) (r : RegSel) :
    (s.aluStep op r).halted = s.halted := by
  simp [State.aluStep]

@[simp] theorem State.aluStep_lastop (op : AluOp) (r : RegSel) :
    (s.aluStep op r).lastop = s.lastop := by
  simp [State.aluStep]

@[simp] theorem State.replaceSlot_a (r : RegSel) (res : Byte) (ac : Bool) :
    (s.replaceSlot r res ac).a = (s.writeOp r res).a := by
  simp [State.replaceSlot]

@[simp] theorem State.replaceSlot_b (r : RegSel) (res : Byte) (ac : Bool) :
    (s.replaceSlot r res ac).b = (s.writeOp r res).b := by
  simp [State.replaceSlot]

@[simp] theorem State.replaceSlot_c (r : RegSel) (res : Byte) (ac : Bool) :
    (s.replaceSlot r res ac).c = (s.writeOp r res).c := by
  simp [State.replaceSlot]

@[simp] theorem State.replaceSlot_d (r : RegSel) (res : Byte) (ac : Bool) :
    (s.replaceSlot r res ac).d = (s.writeOp r res).d := by
  simp [State.replaceSlot]

@[simp] theorem State.replaceSlot_e (r : RegSel) (res : Byte) (ac : Bool) :
    (s.replaceSlot r res ac).e = (s.writeOp r res).e := by
  simp [State.replaceSlot]

@[simp] theorem State.replaceSlot_h (r : RegSel) (res : Byte) (ac : Bool) :
    (s.replaceSlot r res ac).h = (s.writeOp r res).h := by
  simp [State.replaceSlot]

@[simp] theorem State.replaceSlot_l (r : RegSel) (res : Byte) (ac : Bool) :
    (s.replaceSlot r res ac).l = (s.writeOp r res).l := by
  simp [State.replaceSlot]

@[simp] theorem State.replaceSlot_pc (r : RegSel) (res : Byte) (ac : Bool) :
    (s.replaceSlot r res ac).pc = s.pc + 1#16 := by
  simp [State.replaceSlot]

@[simp] theorem State.replaceSlot_sp (r : RegSel) (res : Byte) (ac : Bool) :
    (s.replaceSlot r res ac).sp = s.sp := by
  simp [State.replaceSlot]

@[simp] theorem State.replaceSlot_flagAC (r : RegSel) (res : Byte) (ac : Bool) :
    (s.replaceSlot r res ac).flagAC = acUnder Config.acPolicy ac s.flagAC := by
  simp [State.replaceSlot]

@[simp] theorem State.replaceSlot_flagP (r : RegSel) (res : Byte) (ac : Bool) :
    (s.replaceSlot r res ac).flagP = parity8 res := by
  simp [State.replaceSlot]

@[simp] theorem State.replaceSlot_flagCF (r : RegSel) (res : Byte) (ac : Bool) :
    (s.replaceSlot r res ac).flagCF = s.flagCF := by
  simp [State.replaceSlot]

@[simp] theorem State.replaceSlot_mem (r : RegSel) (res : Byte) (ac : Bool) :
    (s.replaceSlot r res ac).mem = (s.writeOp r res).mem := by
  simp [State.replaceSlot]

@[simp] theorem State.replaceSlot_halted (r : RegSel) (res : Byte) (ac : Bool) :
    (s.replaceSlot r res ac).halted = s.halted := by
  simp [State.replaceSlot]

@[simp] theorem State.replaceSlot_lastop (r : RegSel) (res : Byte) (ac : Bool) :
    (s.replaceSlot r res ac).lastop = s.lastop := by
  simp [State.replaceSlot]

/-- What `INR` and `DCR` share, over `WriteOp` (41_inr_dcr.md R72, R73). -/
theorem State.replaceSlot_eq (r : RegSel) (res : Byte) (ac : Bool) :
    s.replaceSlot r res ac =
      { s.writeOp r res with
        pc := s.pc + 1
        flagS := res.getLsbD 7
        flagZ := res == (0x00 : Byte)
        flagP := parity8 res
        flagAC := acUnder Config.acPolicy ac s.flagAC } := by
  ext1 <;> simp [State.replaceSlot]

end

/-- The policy in force holds `AC` (10_state.md R27, log 2). -/
@[simp] theorem acUnder_config (new old : Bool) : acUnder Config.acPolicy new old = old := rfl

end Sys2Proof.Machine
end

