-- ==== Sys2Proof/Laws/PerInstr.lean ====
section
/-! SUPPORT. Facts about every instruction as syntax, one lemma for each constructor. -/

namespace Sys2Proof.Laws.EncodingLength

/-- An instruction is 1, 2 or 3 bytes long, and its length is that of the form of its first byte (30_encoding.md R53). -/
def Statement (i : Instr) : Prop :=
  i.wf = true → (encode i).head?.map (fun op => (opForm op).length) = some (encode i).length

/-- The forms of the unimplemented values: one byte each (30_encoding.md R63). -/
theorem unimpl_length : ∀ op : Byte, isUnimplemented op = true → (opForm op).length = 1 := by decide

theorem stc : Statement (.stc) := fun _ => rfl

theorem cmc : Statement (.cmc) := fun _ => rfl

theorem inr (r : RegSel) : Statement (.inr r) := fun _ => by cases r <;> rfl

theorem dcr (r : RegSel) : Statement (.dcr r) := fun _ => by cases r <;> rfl

theorem cma : Statement (.cma) := fun _ => rfl

theorem hlt : Statement (.hlt) := fun _ => rfl

theorem mov (dst : RegSel) (src : RegSel) : Statement (.mov dst src) :=
  fun _ => by cases dst <;> cases src <;> rfl

theorem stax (rp : IndirectPair) : Statement (.stax rp) := fun _ => by cases rp <;> rfl

theorem ldax (rp : IndirectPair) : Statement (.ldax rp) := fun _ => by cases rp <;> rfl

theorem add (r : RegSel) : Statement (.add r) := fun _ => by cases r <;> rfl

theorem adc (r : RegSel) : Statement (.adc r) := fun _ => by cases r <;> rfl

theorem sub (r : RegSel) : Statement (.sub r) := fun _ => by cases r <;> rfl

theorem sbb (r : RegSel) : Statement (.sbb r) := fun _ => by cases r <;> rfl

theorem ana (r : RegSel) : Statement (.ana r) := fun _ => by cases r <;> rfl

theorem xra (r : RegSel) : Statement (.xra r) := fun _ => by cases r <;> rfl

theorem ora (r : RegSel) : Statement (.ora r) := fun _ => by cases r <;> rfl

theorem cmp (r : RegSel) : Statement (.cmp r) := fun _ => by cases r <;> rfl

theorem lxi (rp : RegPair) (d16 : Word) : Statement (.lxi rp d16) := fun _ => by cases rp <;> rfl

theorem mvi (r : RegSel) (d8 : Byte) : Statement (.mvi r d8) := fun _ => by cases r <;> rfl

theorem nop : Statement (.nop) := fun _ => rfl

theorem unimpl (op : Byte) : Statement (.unimpl op) := by
  intro hwf
  simpa [encode] using unimpl_length op hwf

end Sys2Proof.Laws.EncodingLength
end

