-- ==== Sys2Proof/Laws/Step.lean ====
section
/-! SUPPORT. What a step is in each case, and the induction over a run said once. -/

namespace Sys2Proof.Machine

/-- The step of a halted core (43_mov_hlt.md R76). -/
theorem step_of_halted {s : State} (h : s.halted = true) : step s = .next s := by
  rw [step, h]
  rfl

/-- The step of a running core. -/
theorem step_of_running {s : State} (h : s.halted = false) : step s = exec s.fetch s.noteOpcode := by
  rw [step, h]

/-- A run of `k + 1` steps goes on from the next state of the first. -/
theorem run_succ_of_next {k : Nat} {s u : State} (h : step s = .next u) :
    Host.Core.run Sys2Proof.core (k + 1) s = Host.Core.run Sys2Proof.core k u := by
  have hcore : Sys2Proof.core.step s = .next u := h
  simp only [Host.Core.run, hcore]

/-- A run of `k + 1` steps is a step and a run of `k`. -/
theorem runsTo_succ {k : Nat} {s t : State} :
    RunsTo (k + 1) s t ↔ ∃ u, step s = .next u ∧ RunsTo k u t := by
  constructor
  · intro h
    rcases hstep : step s with u | r | r
    · exact ⟨u, rfl, (run_succ_of_next hstep).symm.trans h⟩
    · cases r
    · have hcore : Sys2Proof.core.step s = .refused r := hstep
      simp only [RunsTo, Host.Core.run, hcore] at h
      cases h
  · rintro ⟨u, hu, h⟩
    exact (run_succ_of_next hu).trans h

/-- A run of no step stays where it is. -/
theorem runsTo_zero {s t : State} : RunsTo 0 s t ↔ s = t := by
  have hrun : Host.Core.run Sys2Proof.core 0 s = .next s := rfl
  rw [RunsTo, hrun]
  exact ⟨fun h => by cases h; rfl, fun h => by rw [h]⟩

/-- What every step keeps, every run keeps. -/
theorem runsTo_keeps {P : State → Prop} (hstep : ∀ s t, P s → step s = .next t → P t) :
    ∀ {k : Nat} {s t : State}, P s → RunsTo k s t → P t
  | 0, _, _, hP, h => (runsTo_zero.mp h) ▸ hP
  | _ + 1, s, _, hP, h => by
    obtain ⟨u, hu, hrest⟩ := runsTo_succ.mp h
    exact runsTo_keeps hstep (hstep s u hP hu) hrest

/-- Reading a byte of the state's memory after a write (20_memory.md R36, R37). -/
theorem State.read_write {s : State} (hwf : s.mem.wf = true) (addr other : Word) (v : Byte) :
    (s.write addr v).read other = if other = addr then v else s.read other :=
  Memory.read_write hwf addr other v

/-- Noting the opcode reads as before. -/
@[simp] theorem State.noteOpcode_read (s : State) (addr : Word) : s.noteOpcode.read addr = s.read addr := rfl

/-- Advancing `PC` reads as before. -/
@[simp] theorem State.advance_read (s : State) (n : Nat) (addr : Word) : (s.advance n).read addr = s.read addr := rfl

/-- `WriteOp` keeps the canonical form. -/
theorem State.writeOp_mem_wf {s : State} (hwf : s.mem.wf = true) (r : RegSel) (v : Byte) :
    (s.writeOp r v).mem.wf = true := by
  rcases s.writeOp_cases r v with ⟨_, hmem, _⟩ | ⟨_, hwrite⟩
  · rw [hmem]
    exact hwf
  · rw [hwrite]
    exact Memory.wf_write hwf _ _

end Sys2Proof.Machine
end

