-- ==== Sys2Proof/Tests/Slice0.lean ====
section
/-! SUPPORT. Checks on fixed values: well-formedness, decoding of words written out from 30_encoding.md R55, one step of
each instruction against 95_test_vectors.md, and for every statement with hypotheses a witness that meets them. -/

namespace Sys2Proof.Tests

open Sys2Proof Sys2Proof.Machine

/-! ## Helpers -/

/-- A running state of zeros with `SP` at a number. -/
def base : State := { State.reset with sp := 0xF123 }

/-- The state after one step, or `base` where there is none. -/
def after (s : State) : State :=
  match step s with
  | .next t => t
  | .fault _ | .refused _ => base

/-- The state after one step that runs the instruction of `nbits` bits `w`. -/
def ran (s : State) (nbits w : Nat) : State := after (s.withFetchWord nbits w)

/-- The flags in the order `CF`, `Z`, `S`, `P` of the vector tables. -/
def flags (s : State) : List Bool := [s.flagCF, s.flagZ, s.flagS, s.flagP]

/-! ## Well-formedness -/

theorem test_wf_refuses_mov_m_m : (Instr.mov .m .m).wf = false := by decide
theorem test_wf_accepts_mov_of_one_m : (Instr.mov .m .a).wf = true ∧ (Instr.mov .a .m).wf = true := by decide
theorem test_wf_refuses_unimpl_of_nop : (Instr.unimpl 0x00).wf = false := by decide
theorem test_wf_refuses_unimpl_of_hlt : (Instr.unimpl 0x76).wf = false := by decide
theorem test_wf_refuses_unimpl_of_cmp : (Instr.unimpl 0xBF).wf = false := by decide
theorem test_wf_accepts_unimpl_of_listed : (Instr.unimpl 0x08).wf = true ∧ (Instr.unimpl 0xC0).wf = true := by decide

/-! ## Decoding words written out from R55 (fields of R54, codes of R16, R59, R60, R61) -/

theorem test_decode_stc : decode [0b0011_0111] = .ok (.stc, []) := by rfl
theorem test_decode_cmc : decode [0b0011_1111] = .ok (.cmc, []) := by rfl
theorem test_decode_inr_l : decode [0b00_101_100] = .ok (.inr .l, []) := by rfl
theorem test_decode_dcr_m : decode [0b00_110_101] = .ok (.dcr .m, []) := by rfl
theorem test_decode_cma : decode [0b0010_1111] = .ok (.cma, []) := by rfl
theorem test_decode_hlt : decode [0b0111_0110] = .ok (.hlt, []) := by rfl
theorem test_decode_mov_d_h : decode [0b01_010_100] = .ok (.mov .d .h, []) := by rfl
theorem test_decode_mov_m_a : decode [0b01_110_111] = .ok (.mov .m .a, []) := by rfl
theorem test_decode_stax_b : decode [0b000_0_0010] = .ok (.stax .bc, []) := by rfl
theorem test_decode_stax_d : decode [0b000_1_0010] = .ok (.stax .de, []) := by rfl
theorem test_decode_ldax_b : decode [0b000_0_1010] = .ok (.ldax .bc, []) := by rfl
theorem test_decode_ldax_d : decode [0b000_1_1010] = .ok (.ldax .de, []) := by rfl
theorem test_decode_add_c : decode [0b10_000_001] = .ok (.add .c, []) := by rfl
theorem test_decode_adc_b : decode [0b10_001_000] = .ok (.adc .b, []) := by rfl
theorem test_decode_sub_e : decode [0b10_010_011] = .ok (.sub .e, []) := by rfl
theorem test_decode_sbb_h : decode [0b10_011_100] = .ok (.sbb .h, []) := by rfl
theorem test_decode_ana_l : decode [0b10_100_101] = .ok (.ana .l, []) := by rfl
theorem test_decode_xra_a : decode [0b10_101_111] = .ok (.xra .a, []) := by rfl
theorem test_decode_ora_m : decode [0b10_110_110] = .ok (.ora .m, []) := by rfl
theorem test_decode_cmp_d : decode [0b10_111_010] = .ok (.cmp .d, []) := by rfl
theorem test_decode_nop : decode [0b0000_0000] = .ok (.nop, []) := by rfl
theorem test_decode_unimpl_27 : decode [0b0010_0111] = .ok (.unimpl 0x27, []) := by rfl
theorem test_decode_lxi_b : decode [0b00_00_0001, 0xEE, 0xDD] = .ok (.lxi .bc 0xDDEE, []) := by rfl
theorem test_decode_lxi_sp : decode [0b00_11_0001, 0x00, 0xF0] = .ok (.lxi .sp 0xF000, []) := by rfl
theorem test_decode_mvi_m : decode [0b00_110_110, 0xBB] = .ok (.mvi .m 0xBB, []) := by rfl
theorem test_decode_short_lists : decode [] = .error .noOpcode ∧ decode [0x06] = .error (.noD8 0x06) ∧
    decode [0x01, 0xEE] = .error (.noD16 0x01) := ⟨rfl, rfl, rfl⟩
theorem test_decodeTableWord_lxi : decodeTableWord 24 0xDDEE01 = some (.lxi .bc 0xDDEE) := by rfl
theorem test_decodeTableWord_short : decodeTableWord 8 0xFF06 = some (.mvi .b 0x00) := by rfl
theorem test_encode_mov_d_h : encode (.mov .d .h) = [0b01_010_100] := by rfl

/-! ## One step of each instruction (vectors of 95_test_vectors.md, section 2 unless said) -/

theorem test_stc : (ran { base with pc := 0x0010 } 8 0x37).flagCF = true ∧ (ran { base with pc := 0x0010 } 8 0x37).pc = 0x0011 := by decide
theorem test_stc_keeps_others : (fun t : State => (flags t, t.flagAC))
    (ran { base with flagCF := true, flagZ := true, flagS := true, flagP := true, flagAC := true } 8 0x37) =
    ([true, true, true, true], true) := by decide
theorem test_cmc_sets : (ran base 8 0x3F).flagCF = true := by decide
theorem test_cmc_clears : (ran { base with flagCF := true } 8 0x3F).flagCF = false := by decide
theorem test_inr_a_wraps : (fun t : State => (t.a, flags t)) (ran { base with a := 0xFF, flagCF := true } 8 0x3C) =
    (0x00, [true, true, false, true]) := by decide
theorem test_inr_m : (fun t : State => (t.read 0x2010, flags t))
    (ran { base with h := 0x20, l := 0x10, mem := [(0x2010, 0x0E)] } 8 0x34) = (0x0F, [false, false, false, true]) := by decide
theorem test_dcr_b_wraps : (fun t : State => (t.b, flags t)) (ran base 8 0x05) = (0xFF, [false, false, true, true]) := by decide
theorem test_dcr_h_keeps_l : (fun t : State => (t.h, t.l)) (ran { base with h := 0x00, l := 0x05 } 8 0x25) = (0xFF, 0x05) := by decide
theorem test_cma : (fun t : State => (t.a, flags t)) (ran { base with a := 0x51, flagZ := true, flagCF := true } 8 0x2F) =
    (0xAE, [true, true, false, false]) := by decide
theorem test_cma_sets_no_flag : (fun t : State => (t.a, flags t)) (ran base 8 0x2F) = (0xFF, [false, false, false, false]) := by decide
theorem test_hlt : (fun t : State => (t.pc, t.halted, t.lastop, t.a)) (ran { base with a := 0x07, pc := 0x0100 } 8 0x76) =
    (0x0101, true, some 0x76, 0x07) := by decide
theorem test_hlt_wraps : (ran { base with pc := 0xFFFF } 8 0x76).pc = 0x0000 := by decide
theorem test_mov_h_m : (fun t : State => (t.h, t.l, t.read 0x1234))
    (ran { base with h := 0x12, l := 0x34, mem := [(0x1234, 0x56), (0x5634, 0x77)] } 8 0x66) = (0x56, 0x34, 0x56) := by decide
theorem test_mov_m_h : (ran { base with h := 0x12, l := 0x34 } 8 0x74).read 0x1234 = 0x12 := by decide
theorem test_stax_d_at_top : (ran { base with a := 0x11, d := 0xFF, e := 0xFF } 8 0x12).read 0xFFFF = 0x11 := by decide
theorem test_stax_b_on_itself : (fun t : State => (t.read 0x0000, t.pc)) (ran { base with a := 0x76 } 8 0x02) = (0x76, 0x0001) := by decide
theorem test_ldax_b : (ran { base with b := 0x30, c := 0x01, mem := [(0x3001, 0xA7)] } 8 0x0A).a = 0xA7 := by decide
theorem test_ldax_d_of_itself : (ran { base with a := 0x99 } 8 0x1A).a = 0x1A := by decide
theorem test_add : (fun t : State => (t.a, flags t)) (ran { base with a := 0x6C, b := 0x2E, flagCF := false } 8 0x80) =
    (0x9A, [false, false, true, true]) := by decide
theorem test_add_carries : (fun t : State => (t.a, flags t)) (ran { base with a := 0xFF, b := 0x01, flagCF := false } 8 0x80) =
    (0x00, [true, true, false, true]) := by decide
theorem test_adc : (fun t : State => (t.a, flags t)) (ran { base with a := 0x8F, b := 0x0C, flagCF := true } 8 0x88) =
    (0x9C, [false, false, true, true]) := by decide
theorem test_adc_carries : (fun t : State => (t.a, flags t)) (ran { base with a := 0xFF, b := 0xFF, flagCF := true } 8 0x88) =
    (0xFF, [true, false, true, true]) := by decide
theorem test_sub_borrows : (fun t : State => (t.a, flags t)) (ran { base with a := 0x00, b := 0x01, flagCF := false } 8 0x90) =
    (0xFF, [true, false, true, true]) := by decide
theorem test_sub_ignores_carry : (fun t : State => (t.a, flags t)) (ran { base with a := 0x3E, b := 0x3E, flagCF := true } 8 0x90) =
    (0x00, [false, true, false, true]) := by decide
theorem test_sbb : (fun t : State => (t.a, flags t)) (ran { base with a := 0x04, b := 0x02, flagCF := true } 8 0x98) =
    (0x01, [false, false, false, false]) := by decide
theorem test_sbb_borrows_to_zero : (fun t : State => (t.a, flags t)) (ran { base with a := 0x00, b := 0xFF, flagCF := true } 8 0x98) =
    (0x00, [true, true, false, true]) := by decide
theorem test_ana : (fun t : State => (t.a, flags t)) (ran { base with a := 0xFC, b := 0x0F, flagCF := true } 8 0xA0) =
    (0x0C, [false, false, false, true]) := by decide
theorem test_ana_zero : (fun t : State => (t.a, flags t)) (ran { base with a := 0xF0, b := 0x0F, flagCF := true } 8 0xA0) =
    (0x00, [false, true, false, true]) := by decide
theorem test_xra : (fun t : State => (t.a, flags t)) (ran { base with a := 0xFF, b := 0x0F, flagCF := false } 8 0xA8) =
    (0xF0, [false, false, true, true]) := by decide
theorem test_xra_a : (fun t : State => (t.a, flags t)) (ran { base with a := 0x5A, flagCF := true } 8 0xAF) =
    (0x00, [false, true, false, true]) := by decide
theorem test_ora : (fun t : State => (t.a, flags t)) (ran { base with a := 0x33, b := 0x0F, flagCF := true } 8 0xB0) =
    (0x3F, [false, false, false, true]) := by decide
theorem test_ora_a : (fun t : State => (t.a, flags t)) (ran { base with a := 0x80, flagCF := true } 8 0xB7) =
    (0x80, [false, false, true, false]) := by decide
theorem test_cmp_borrows : (fun t : State => (t.a, flags t)) (ran { base with a := 0x02, b := 0x05, flagCF := false } 8 0xB8) =
    (0x02, [true, false, true, false]) := by decide
theorem test_cmp_no_borrow : (fun t : State => (t.a, flags t)) (ran { base with a := 0xE5, b := 0x05, flagCF := false } 8 0xB8) =
    (0xE5, [false, false, true, false]) := by decide
theorem test_lxi_b : (fun t : State => (t.b, t.c, t.pc)) (ran base 24 0xDDEE01) = (0xDD, 0xEE, 0x0003) := by decide
theorem test_lxi_d_wraps : (fun t : State => (t.d, t.e, t.pc)) (ran { base with pc := 0xFFFE } 24 0xABCD11) = (0xAB, 0xCD, 0x0001) := by decide
theorem test_mvi_m : (fun t : State => (t.read 0x4000, t.pc)) (ran { base with h := 0x40, pc := 0x0020 } 16 0xFF36) = (0xFF, 0x0022) := by decide
theorem test_mvi_a_wraps : (fun t : State => (t.a, t.pc)) (ran { base with pc := 0xFFFF } 16 0x773E) = (0x77, 0x0001) := by decide
theorem test_nop : ran { base with a := 0x01, b := 0x02, flagCF := true, pc := 0x1234 } 8 0x00 =
    { base with a := 0x01, b := 0x02, flagCF := true, pc := 0x1235, lastop := some 0x00 } := by decide
theorem test_nop_wraps : (ran { base with pc := 0xFFFF } 8 0x00).pc = 0x0000 := by decide
theorem test_unimpl_c3 : (fun t : State => (t.pc, t.lastop, t.a)) (ran { base with a := 0x01, pc := 0x0010 } 24 0x2000C3) =
    (0x0011, some 0xC3, 0x01) := by decide
theorem test_unimpl_3a : (fun t : State => (t.pc, t.a)) (ran { base with a := 0x01 } 24 0x12343A) = (0x0001, 0x01) := by decide

/-! ## Parity, memory (sections 1 and 2.11) -/

theorem test_parity : parity8 0x00 = true ∧ parity8 0xFF = true ∧ parity8 0x0F = true ∧ parity8 0x07 = false := by decide
theorem test_write_zero_unlists : Memory.write [(5, 0x01), (9, 0x02)] 0x0005 0x00 = [(9, 0x02)] := by decide
theorem test_load_two_bytes : load [0x3E, 0x44] base = .next { base with mem := [(0, 0x3E), (1, 0x44)] } := by rfl
theorem test_first_step_after_reset : step (State.reset.withFetchWord 16 0x443E) =
    exec (.mvi .a 0x44) { State.reset with mem := [(0, 0x3E), (1, 0x44)], lastop := some 0x3E } := by rfl

/-! ## Witnesses: each statement's hypotheses are met together -/

theorem test_witness_LoadChangesOnlyMemory :
    (base.lastop = none ∧ (List.replicate 65536 (0x5A : Byte)).length ≤ 65536) ∧
    (base.lastop = none ∧ 65536 < (List.replicate 65537 (0x5A : Byte)).length) ∧
    { base with lastop := some 0x00 }.lastop ≠ none := by
  rw [List.length_replicate, List.length_replicate]
  decide

theorem test_witness_MemReadReturnsLastWritten :
    base.mem.wf = true ∧ ∃ t, load [0x3E, 0x44] base = .next t := ⟨rfl, _, rfl⟩

theorem test_witness_CanonicalMemoriesReadingAlikeAreEqual :
    ∃ m m' : Memory, m.wf = true ∧ m'.wf = true ∧ m ≠ [] ∧
      ∀ addr : Word, Memory.read m addr = Memory.read m' addr :=
  ⟨[(0, 0x01), (65535, 0x02)], [(0, 0x01), (65535, 0x02)], by decide, by decide, by decide, fun _ => rfl⟩

/-- Of `ReadOpSelectsSlotByCode` and `WriteOpWritesOnlySlotByCode`, at both ends of the range. -/
theorem test_witness_slot_codes : (0 : BitVec 3) ≠ 6 ∧ (7 : BitVec 3) ≠ 6 := by decide

theorem test_witness_MovWritesSourceToDestination :
    ¬((RegSel.m = .m) ∧ (RegSel.a = .m)) ∧ ¬((RegSel.b = .m) ∧ (RegSel.m = .m)) := by decide

theorem test_witness_MovDeliversSourceAndKeepsIt :
    base.mem.wf = true ∧
    (¬((RegSel.b = .m) ∧ (RegSel.c = .m)) ∧ RegSel.c ≠ .b ∧ RegSel.c ≠ .m) ∧
    (¬((RegSel.h = .m) ∧ (RegSel.m = .m)) ∧ RegSel.m = .m) ∧
    (¬((RegSel.a = .m) ∧ (RegSel.a = .m)) ∧ RegSel.a = .a) := by decide

theorem test_witness_HaltedCoreStaysAsItIs : { base with halted := true }.halted = true := by rfl

theorem test_witness_StaxStoresAccumulatorThroughPair :
    { base with d := 0xFF, e := 0xFF, mem := [(65535, 0x01)] }.mem.wf = true := by decide

theorem test_witness_MviWritesImmediateToSlot :
    ∃ s : State, s.halted = false ∧ s.read s.pc = (0b00#2 ++ RegSel.code .m ++ 0b110#3 : Byte) ∧
      s.read (s.pc + 1) = 0xFF := ⟨{ base with pc := 0xFFFF, mem := [(0, 0xFF), (65535, 0x36)] }, by decide⟩

theorem test_witness_NopChangesOnlyPc : base.halted = false ∧ base.read base.pc = 0x00 := by decide

theorem test_witness_UnimplementedOpcodeIsOneByteNoOp :
    (0xC0 : Byte).toNat ≥ 0xC0 ∧ (0x03 : Byte) ∈ unimplementedLow ∧ (0x3B : Byte) ∈ unimplementedLow := by decide

theorem test_witness_ClassesFollowMasks :
    (0x3F : Byte) &&& 0xF7 = 0x37 ∧ (0x3C : Byte) &&& 0xC7 = 0x04 ∧ (0x3D : Byte) &&& 0xC7 = 0x05 ∧
    ((0x77 : Byte) &&& 0xC0 = 0x40 ∧ (0x77 : Byte) ≠ 0x76) ∧ (0x1A : Byte) &&& 0xE7 = 0x02 ∧
    (0xBF : Byte) &&& 0xC0 = 0x80 ∧ (0x31 : Byte) &&& 0xCF = 0x01 ∧ (0x3E : Byte) &&& 0xC7 = 0x06 ∧
    ((0xC0 : Byte) &&& 0xF7 ≠ 0x37 ∧ (0xC0 : Byte) &&& 0xC7 ≠ 0x04 ∧ (0xC0 : Byte) &&& 0xC7 ≠ 0x05 ∧
      (0xC0 : Byte) ≠ 0x2F ∧ (0xC0 : Byte) &&& 0xC0 ≠ 0x40 ∧ (0xC0 : Byte) &&& 0xE7 ≠ 0x02 ∧
      (0xC0 : Byte) &&& 0xC0 ≠ 0x80 ∧ (0xC0 : Byte) &&& 0xCF ≠ 0x01 ∧ (0xC0 : Byte) &&& 0xC7 ≠ 0x06 ∧
      (0xC0 : Byte) ≠ 0x00) := by decide

theorem test_witness_HaltEncodingIsNeverAMove : decode [0x77, 0x00] = .ok (.mov .m .a, [0x00]) := by rfl

theorem test_witness_FetchAssemblesImmediates :
    (∃ s : State, s.pc = 0xFFFF ∧ s.read s.pc = (0b00#2 ++ RegSel.code .a ++ 0b110#3 : Byte)) ∧
    ∃ s : State, s.pc = 0xFFFE ∧ s.read s.pc = (0b00#2 ++ RegPair.code .de ++ 0b0001#4 : Byte) :=
  ⟨⟨{ base with pc := 0xFFFF, mem := [(65535, 0x3E)] }, by decide⟩,
    ⟨{ base with pc := 0xFFFE, mem := [(65534, 0x11)] }, by decide⟩⟩

theorem test_witness_DecodeOfEncodeIsInstruction :
    (Instr.lxi .sp 0xFFFF).wf = true ∧ (Instr.unimpl 0xFF).wf = true ∧ (Instr.mov .m .h).wf = true := by decide

theorem test_witness_DecodedBytesAreTheEncoding :
    decode [0x31, 0xFF, 0xFF, 0x00] = .ok (.lxi .sp 0xFFFF, [0x00]) := by rfl

theorem test_witness_StepRunsDecodedInstruction :
    ∃ s : State, s.halted = false ∧ s.pc = 0xFFFE ∧
      decode [s.read s.pc, s.read (s.pc + 1), s.read (s.pc + 2)] = .ok (.lxi .de 0xABCD, []) :=
  ⟨{ base with pc := 0xFFFE, mem := [(0, 0xAB), (65534, 0x11), (65535, 0xCD)] }, rfl, rfl, rfl⟩

/-- Of `StepAdvancesPcByLength` and `StepRecordsOpcodeInLastop`: a running and a halted core. -/
theorem test_witness_step_answers :
    (base.halted = false ∧ ∃ t, step base = .next t) ∧
    ({ base with halted := true }.halted = true ∧ ∃ t, step { base with halted := true } = .next t) :=
  ⟨⟨rfl, _, rfl⟩, rfl, _, rfl⟩

theorem test_witness_OnlyHaltOpcodeHalts :
    ∃ s t : State, s.halted = false ∧ step s = .next t ∧ t.halted = true ∧ s.read s.pc = 0x76 :=
  ⟨{ base with mem := [(0, 0x76)] }, _, rfl, rfl, rfl, rfl⟩

theorem test_witness_OnlyLxiSpChangesSp : ∃ s t : State, step s = .next t ∧ t.sp ≠ s.sp :=
  ⟨{ base with mem := [(0, 0x31)] }, _, rfl, by decide⟩

theorem test_witness_StepKeepsInv :
    ∃ s t : State, s.Inv ∧ step s = .next t ∧ t.halted = true ∧ ∃ u, t.Inv ∧ step t = .next u :=
  ⟨{ base with mem := [(0, 0x76)] }, _, ⟨rfl, nofun⟩, rfl, rfl, _, ⟨rfl, fun _ => rfl⟩, rfl⟩

theorem test_witness_InstructionsKeepOtherRegisters :
    (∃ t, exec (.lxi .de 0x1234) base = .next t) ∧ RegSel.c ≠ .m ∧ writesReg (.lxi .de 0x1234) .c = false ∧
    (∀ d16 : Word, Instr.lxi .de 0x1234 ≠ .lxi .sp d16) ∧ Instr.lxi .de 0x1234 ≠ .hlt :=
  ⟨⟨_, rfl⟩, by decide, rfl, nofun, nofun⟩

theorem test_witness_InstructionsKeepOtherFlags :
    (∃ t, exec (.inr .m) base = .next t) ∧ writesFlag (.inr .m) .cf = false ∧
    (∃ t, exec (.cmp .a) base = .next t) ∧ writesFlag (.cmp .a) .ac = false := ⟨⟨_, rfl⟩, rfl, ⟨_, rfl⟩, rfl⟩

/-- A storing form at `HL` at each end of memory, one at a pair, and one that stores nothing. -/
theorem test_witness_InstructionsKeepOtherMemory :
    base.mem.wf = true ∧ (∃ t, exec (.inr .m) base = .next t ∧ (0x0001 : Word) ≠ base.hl) ∧
    (∃ t, exec (.mvi .m 0x01) { base with h := 0xFF, l := 0xFF } = .next t) ∧
    (∃ t, exec (.stax .de) base = .next t ∧ (0xFFFF : Word) ≠ base.indirectAddr .de) ∧
    ∃ t, exec (.cmp .m) base = .next t := ⟨rfl, ⟨_, rfl, by decide⟩, ⟨_, rfl⟩, ⟨_, rfl, by decide⟩, _, rfl⟩

theorem test_witness_StepMakesFewOrderedAccesses :
    { base with halted := true }.halted = true ∧ base.halted = false ∧
    { base with h := 0x20, l := 0x10, mem := [(0, 0x34)] }.accesses =
      [.fetch 0x0000, .read 0x2010, .write 0x2010] := by decide

/-- `MOV A,M` with a cell that differs outside the bytes it reads. -/
theorem test_witness_StepDependsOnlyOnBytesItReads :
    ∃ s s' t t' : State, s.mem.wf = true ∧ s'.mem.wf = true ∧ { s' with mem := s.mem } = s ∧ s.mem ≠ s'.mem ∧
      (∀ addr : Word, .fetch addr ∈ s.accesses ∨ .read addr ∈ s.accesses → s'.read addr = s.read addr) ∧
      step s = .next t ∧ step s' = .next t' := by
  refine ⟨{ base with h := 0x01, mem := [(0, 0x7E), (0x100, 0x5A)] },
    { base with h := 0x01, mem := [(0, 0x7E), (0x100, 0x5A), (0x200, 0x01)] }, _, _, by decide, by decide, rfl,
    by decide, ?_, rfl, rfl⟩
  intro addr h
  rw [show State.accesses { base with h := 0x01, mem := [(0, 0x7E), (0x100, 0x5A)] } =
    [.fetch 0x0000, .read 0x0100] by decide] at h
  have : addr = 0x0000 ∨ addr = 0x0100 := by simpa using h
  rcases this with rfl | rfl <;> decide

theorem test_witness_HiddenStateNeverReachesObservable :
    ∃ s s' t t' : State, s.observable = s'.observable ∧ s ≠ s' ∧ RunsTo 2 s t ∧ RunsTo 2 s' t' :=
  ⟨base, { base with sp := 0x0000, flagZ := true, flagAC := true, lastop := some 0x00 }, _, _, rfl, by decide, rfl, rfl⟩

theorem test_witness_AluIdentities : base.flagCF = false ∧ (0x01 : Byte) ≠ 0 ∧ (0xFF : Byte) ≠ 0 := by decide

end Sys2Proof.Tests
end

section
/-! The state's small functions, family 10_state.md: the slots by their codes (R20, R21) and the flag helpers (R26). -/

namespace Sys2Proof.Machine

/-! ## Slots by code -/

/-- The address of `HL` as the number `H * 256 + L` (10_state.md R18, R19). -/
theorem State.hl_eq_wordOf (s : State) : s.hl = wordOf s.h s.l := by
  rw [State.hl, wordOf, ← pairOf_toNat, BitVec.ofNat_toNat, BitVec.setWidth_eq]

/-- Code 6 alone names the memory slot (10_state.md R16). -/
theorem ofCode_eq_m_iff : ∀ {code : BitVec 3}, RegSel.ofCode code = .m ↔ code = 6 := by decide

@[simp] theorem State.slotAddr_m (s : State) : s.slotAddr .m = some s.hl := rfl

/-- A register slot has no address (10_state.md R19). -/
theorem State.slotAddr_of_ne_m (s : State) : ∀ {r : RegSel}, r ≠ .m → s.slotAddr r = none
  | .m, h => absurd rfl h
  | .b, _ | .c, _ | .d, _ | .e, _ | .h, _ | .l, _ | .a, _ => rfl

/-- The one code with an address is 6, and its address is `H * 256 + L`: what `ReadOp` and `WriteOp` access. -/
theorem State.slotAddr_ofCode (s : State) :
    s.slotAddr (.ofCode 6) = some (wordOf s.h s.l) ∧ ∀ code : BitVec 3, code ≠ 6 → s.slotAddr (.ofCode code) = none :=
  ⟨congrArg some s.hl_eq_wordOf, fun _ hcode => s.slotAddr_of_ne_m (mt ofCode_eq_m_iff.mp hcode)⟩

/-- `ReadOp` of slot `m` reads memory at `H * 256 + L`. -/
theorem State.readOp_m (s : State) : s.readOp .m = s.read (wordOf s.h s.l) := congrArg s.read s.hl_eq_wordOf

/-- `WriteOp` of slot `m` changes memory at `H * 256 + L` and no other field. -/
theorem State.writeOp_m (s : State) (v : Byte) :
    s.writeOp .m v = { s with mem := Memory.write s.mem (wordOf s.h s.l) v } :=
  congrArg (s.write · v) s.hl_eq_wordOf

/-! ## Flag helpers -/

/-- Whether `p` holds an even number of times is the complement of the exclusive OR of `p` over the list. -/
theorem even_length_filter_eq_not_xor {α : Type} (p : α → Bool) (xs : List α) :
    decide ((xs.filter p).length % 2 = 0) = !(xs.foldr (fun x acc => p x ^^ acc) false) := by
  induction xs with
  | nil => rfl
  | cons x xs ih =>
    cases hp : p x
    · simpa [hp] using ih
    · have hflip : ∀ n : Nat, decide ((n + 1) % 2 = 0) = !decide (n % 2 = 0) := fun n => by
        rw [← decide_not, decide_eq_decide]
        omega
      simp [hp, hflip, ih]

/-- A slice of one bit is that bit. -/
theorem extractLsb'_one_eq_ofBool (v : Byte) (i : Nat) : v.extractLsb' i 1 = BitVec.ofBool (v.getLsbD i) := by
  apply BitVec.eq_of_getLsbD_eq
  intro j hj
  obtain rfl : j = 0 := by omega
  simp

/-- The complemented exclusive OR of the bits says whether the number of 1 bits is even (10_state.md R26). -/
theorem parity8_eq_evenOnes (v : Byte) : parity8 v = evenOnes v := by
  have hrange : List.range 8 = [0, 1, 2, 3, 4, 5, 6, 7] := rfl
  have hnot : ∀ b : Bool, (~~~BitVec.ofBool b == 1) = !b := by decide
  rw [evenOnes, onesCount, even_length_filter_eq_not_xor, hrange]
  simp only [parity8, extractLsb'_one_eq_ofBool, BitVec.ofBool_xor_ofBool, hnot, List.foldr, Bool.false_xor,
    Bool.xor_comm]

/-- The `Z` of `SetZSP` as a condition on the number (10_state.md R26). -/
theorem beq_zero_eq_decide_toNat (v : Byte) : (v == 0x00) = decide (v.toNat = 0) := by
  rw [beq_eq_decide, decide_eq_decide]
  exact BitVec.toNat_inj.symm

/-- The `S` of `SetZSP`, bit 7, as a condition on the number (10_state.md R26). -/
theorem getLsbD_seven_eq_decide_toNat (v : Byte) : v.getLsbD 7 = decide (128 ≤ v.toNat) :=
  BitVec.msb_eq_decide v

/-- `SetZSP` as one statement, in the numbers of the result: three flags, every other field as before. -/
theorem State.setZSP_eq (s : State) (v : Byte) :
    s.setZSP v =
      { s with flagZ := decide (v.toNat = 0), flagS := decide (128 ≤ v.toNat), flagP := evenOnes v } := by
  rw [← beq_zero_eq_decide_toNat, ← getLsbD_seven_eq_decide_toNat, ← parity8_eq_evenOnes]
  rfl

/-! ## The statements -/

/-- Settles O7, one clause for each code; the clauses that speak of `HL` are the slot lemmas. -/
theorem readOpSelectsSlotByCode : Obligations.ReadOpSelectsSlotByCode :=
  fun s => ⟨rfl, rfl, rfl, rfl, rfl, rfl, rfl, s.readOp_m, s.slotAddr_ofCode⟩

/-- Settles O8, one clause for each code; the clauses that speak of `HL` are the slot lemmas. -/
theorem writeOpWritesOnlySlotByCode : Obligations.WriteOpWritesOnlySlotByCode :=
  fun s v => ⟨rfl, rfl, rfl, rfl, rfl, rfl, rfl, s.writeOp_m v, s.slotAddr_ofCode⟩

/-- Settles O10, from the two lemmas on `parity8` and `SetZSP`. -/
theorem setZSPFollowsResult : Obligations.SetZSPFollowsResult := ⟨parity8_eq_evenOnes, State.setZSP_eq⟩

end Sys2Proof.Machine
end

section
/-! The decoder, family 30_encoding.md: the rows of classification exclude each other (R57, R58), the halt encoding is
no move (R64), and an instruction's length is that of its opcode byte (R53). -/

namespace Sys2Proof

open Sys2Proof.Machine

/-! ## Rows by mask and match -/

/-- Row 5 of R57, the only row that shares an opcode with another one (30_encoding.md R64). -/
def haltRow : PatternRow := ⟨0xFF, 0x76, .halt⟩

/-- A row's test as an equation (30_encoding.md R57). -/
theorem PatternRow.accepts_iff (row : PatternRow) (op : Byte) :
    row.accepts op = true ↔ op &&& row.mask = row.pattern := beq_iff_eq

/-- Masking with all ones keeps the byte. -/
theorem and_allOnes_byte (op : Byte) : op &&& 0xFF = op := BitVec.and_allOnes

theorem haltRow_accepts_iff (op : Byte) : haltRow.accepts op = true ↔ op = 0x76 := by
  rw [PatternRow.accepts_iff, haltRow, and_allOnes_byte]

/-- Two rows that accept one opcode have the same pattern under both masks. -/
theorem PatternRow.patterns_agree {row row' : PatternRow} {op : Byte} (h : row.accepts op = true)
    (h' : row'.accepts op = true) : row.pattern &&& row'.mask = row'.pattern &&& row.mask := by
  rw [← (row.accepts_iff op).mp h, ← (row'.accepts_iff op).mp h', BitVec.and_assoc, BitVec.and_assoc,
    BitVec.and_comm row.mask]

/-- Only the halt row agrees with a row other than itself under both masks. -/
theorem patternRows_apart :
    ∀ row ∈ patternRows, ∀ row' ∈ patternRows, row.pattern &&& row'.mask = row'.pattern &&& row.mask →
      row = row' ∨ row = haltRow ∨ row' = haltRow := by decide

/-- The rows exclude each other on every opcode but `0x76` (30_encoding.md R58, R64). -/
theorem patternRows_exclusive {row row' : PatternRow} {op : Byte} (hrow : row ∈ patternRows)
    (hrow' : row' ∈ patternRows) (h : row.accepts op = true) (h' : row'.accepts op = true) (hop : op ≠ 0x76) :
    row = row' := by
  rcases patternRows_apart row hrow row' hrow' (PatternRow.patterns_agree h h') with heq | rfl | rfl
  · exact heq
  · exact absurd ((haltRow_accepts_iff op).mp h) hop
  · exact absurd ((haltRow_accepts_iff op).mp h') hop

/-! ## The class of an opcode -/

/-- The halt row comes before the move row (30_encoding.md R64). -/
theorem classify_halt : classify 0x76 = .halt := rfl

/-- The class is that of a row the opcode matches, or the opcode matches no row (30_encoding.md R57). -/
theorem classify_cases (op : Byte) :
    (∃ row ∈ patternRows, row.accepts op = true ∧ classify op = row.cls) ∨
    ((∀ row ∈ patternRows, row.accepts op = false) ∧ classify op = .unimplemented) := by
  cases hfind : patternRows.find? (·.accepts op) with
  | some row =>
    have hacc : row.accepts op = true := by simpa using List.find?_some hfind
    exact .inl ⟨row, List.mem_of_find?_eq_some hfind, hacc, by simp [classify, hfind]⟩
  | none => exact .inr ⟨by simpa using hfind, by simp [classify, hfind]⟩

/-- Any row that accepts gives the class, apart from `0x76`: no other row accepts (30_encoding.md R57, R58). -/
theorem classify_of_row {mask pattern op : Byte} {cls : OpClass} (hrow : ⟨mask, pattern, cls⟩ ∈ patternRows)
    (hmatch : op &&& mask = pattern) (hop : op ≠ 0x76) : classify op = cls := by
  have hacc := (PatternRow.accepts_iff ⟨mask, pattern, cls⟩ op).mpr hmatch
  rcases classify_cases op with ⟨row', hrow', hacc', hcls⟩ | ⟨hnone, -⟩
  · rw [hcls, patternRows_exclusive hrow' hrow hacc' hacc hop]
  · cases hacc.symm.trans (hnone _ hrow)

/-- A row that does not match `0x76` gives the class of every opcode it matches. -/
theorem classify_of_row_ne_halt {mask pattern op : Byte} {cls : OpClass}
    (hrow : ⟨mask, pattern, cls⟩ ∈ patternRows) (hhalt : 0x76 &&& mask ≠ pattern) (hmatch : op &&& mask = pattern) :
    classify op = cls :=
  classify_of_row hrow hmatch (by rintro rfl; exact hhalt hmatch)

/-- An opcode that matches no row is unimplemented (30_encoding.md R57, row 12). -/
theorem classify_of_no_row {op : Byte} (hnone : ∀ row ∈ patternRows, op &&& row.mask ≠ row.pattern) :
    classify op = .unimplemented := by
  rcases classify_cases op with ⟨row, hrow, hacc, -⟩ | ⟨-, hcls⟩
  · exact absurd ((row.accepts_iff op).mp hacc) (hnone row hrow)
  · exact hcls

/-- One row only gives the class of moves. -/
theorem eq_moveRow : ∀ row ∈ patternRows, row.cls = .move → row = ⟨0xC0, 0x40, .move⟩ := by decide

/-- An opcode of class move matches the move row (30_encoding.md R57). -/
theorem mask_of_classify_move {op : Byte} (hcls : classify op = .move) : op &&& 0xC0 = 0x40 := by
  rcases classify_cases op with ⟨row, hrow, hacc, hrowCls⟩ | ⟨-, hnone⟩
  · obtain rfl := eq_moveRow row hrow (hrowCls.symm.trans hcls)
    exact (PatternRow.accepts_iff _ op).mp hacc
  · cases hcls.symm.trans hnone

/-! ## The fields of a byte -/

/-- A byte is its class bits, `op[5:3]` and `op[2:0]` (30_encoding.md R54). -/
theorem byte_eq_fields (op : Byte) : op = op.extractLsb' 6 2 ++ op.extractLsb' 3 3 ++ op.extractLsb' 0 3 := by
  rw [BitVec.extractLsb'_append_extractLsb'_eq_extractLsb' (by rfl),
    BitVec.extractLsb'_append_extractLsb'_eq_extractLsb' (by rfl)]
  exact BitVec.extractLsb'_eq_self.symm

/-- The mask `0xC0` compares the two highest bits. -/
theorem top_bits_of_mask {op : Byte} (hmask : op &&& 0xC0 = 0x40) : op.extractLsb' 6 2 = 0b01 :=
  calc op.extractLsb' 6 2
    _ = op.extractLsb' 6 2 &&& (0xC0 : Byte).extractLsb' 6 2 := BitVec.and_allOnes.symm
    _ = (op &&& 0xC0).extractLsb' 6 2 := BitVec.extractLsb'_and.symm
    _ = 0b01 := by rw [hmask]; rfl

/-- The move pattern with both fields `M` is the byte `0x76` (30_encoding.md R64). -/
theorem eq_halt_of_fields_m {op : Byte} (hmask : op &&& 0xC0 = 0x40) (hdst : dddOf op = .m) (hsrc : sssOf op = .m) :
    op = 0x76 := by
  rw [byte_eq_fields op, top_bits_of_mask hmask, ofCode_eq_m_iff.mp hdst, ofCode_eq_m_iff.mp hsrc]
  rfl

/-! ## What decodes -/

/-- The form of a move: its class is the move row's, its slots are the two fields of the opcode. -/
theorem opForm_eq_mov {op : Byte} {dst src : RegSel} (hform : opForm op = .whole (.mov dst src)) :
    classify op = .move ∧ dddOf op = dst ∧ sssOf op = src := by
  cases hcls : classify op <;> simp only [opForm, hcls, reduceCtorEq, OpForm.whole.injEq, Instr.mov.injEq] at hform
  case carryFlag => split at hform <;> cases hform
  case indirect => split at hform <;> cases hform
  case alu => unfold aluInstr at hform; split at hform <;> cases hform
  case move => exact ⟨rfl, hform⟩

/-- What `decode` reads: an opcode and, by its form, no, one or two bytes of immediate (30_encoding.md R53, R56). -/
theorem decode_cases {bytes : List Byte} {i : Instr} {rest : List Byte} (h : decode bytes = .ok (i, rest)) :
    (∃ op, opForm op = .whole i ∧ bytes = op :: rest) ∨
    (∃ op r d8, opForm op = .needsD8 r ∧ bytes = op :: d8 :: rest ∧ i = .mvi r d8) ∨
    (∃ op rp lo hi, opForm op = .needsD16 rp ∧ bytes = op :: lo :: hi :: rest ∧ i = .lxi rp (d16Of lo hi)) := by
  match bytes with
  | [] => cases h
  | op :: tail =>
    cases hform : opForm op with
    | whole j =>
      rw [decode_whole hform] at h
      cases h
      exact .inl ⟨op, hform, rfl⟩
    | needsD8 r =>
      match tail with
      | [] => simp [decode, hform] at h
      | d8 :: tail =>
        rw [decode_needsD8 hform] at h
        cases h
        exact .inr (.inl ⟨op, r, d8, hform, rfl, rfl⟩)
    | needsD16 rp =>
      match tail with
      | [] => simp [decode, hform] at h
      | [_] => simp [decode, hform] at h
      | lo :: hi :: tail =>
        rw [decode_needsD16 hform] at h
        cases h
        exact .inr (.inr ⟨op, rp, lo, hi, hform, rfl, rfl⟩)

/-- A form takes its length off the list (30_encoding.md R53). -/
theorem decode_drop_form_length (op x y : Byte) (rest : List Byte) :
    ∃ i : Instr, decode (op :: x :: y :: rest) = .ok (i, (op :: x :: y :: rest).drop (opForm op).length) := by
  cases hform : opForm op with
  | whole i => exact ⟨i, decode_whole hform _⟩
  | needsD8 r => exact ⟨.mvi r x, decode_needsD8 hform x _⟩
  | needsD16 rp => exact ⟨.lxi rp (d16Of x y), decode_needsD16 hform x y rest⟩

/-- The length of the form is the length R53 lists, for each of the opcode bytes. -/
theorem opForm_length : ∀ op : Byte, (opForm op).length = opcodeLength op := by decide

/-! ## The statements -/

/-- Settles O35: a move of `M` to `M` would need the opcode `0x76`, and the class of `0x76` is the halt row's. -/
theorem haltEncodingIsNeverAMove : Obligations.HaltEncodingIsNeverAMove := by
  refine ⟨decode_whole rfl, ?_⟩
  rintro bytes dst src rest hdec ⟨rfl, rfl⟩
  rcases decode_cases hdec with ⟨op, hform, -⟩ | ⟨_, _, _, -, -, hmvi⟩ | ⟨_, _, _, _, -, -, hlxi⟩
  · obtain ⟨hcls, hdst, hsrc⟩ := opForm_eq_mov hform
    obtain rfl : op = 0x76 := eq_halt_of_fields_m (mask_of_classify_move hcls) hdst hsrc
    cases classify_halt.symm.trans hcls
  · cases hmvi
  · cases hlxi

/-- Settles O36: what is taken is the length of the opcode's form, which is the length of R53. -/
theorem decodeTakesOpcodeLength : Obligations.DecodeTakesOpcodeLength := by
  intro op x y rest
  rw [← opForm_length]
  exact decode_drop_form_length op x y rest

/-- Settles O33: each row that accepts gives its class, as the rows exclude each other on every opcode but `0x76`. -/
theorem classesFollowMasks : Obligations.ClassesFollowMasks := by
  intro op
  refine ⟨classify_of_row_ne_halt (by decide) (by decide), classify_of_row_ne_halt (by decide) (by decide),
    classify_of_row_ne_halt (by decide) (by decide), ?complement, ?halt, classify_of_row (by decide),
    classify_of_row_ne_halt (by decide) (by decide), classify_of_row_ne_halt (by decide) (by decide),
    classify_of_row_ne_halt (by decide) (by decide), classify_of_row_ne_halt (by decide) (by decide),
    ?noOperation, ?unimplemented⟩
  case complement => rintro rfl; rfl
  case halt => rintro rfl; exact classify_halt
  case noOperation => rintro rfl; rfl
  case unimplemented =>
    rintro ⟨hcarry, hinr, hdcr, hcma, hmov, hindirect, halu, hlxi, hmvi, hnop⟩
    have hhalt : op ≠ 0x76 := by rintro rfl; exact hmov rfl
    apply classify_of_no_row
    simp only [patternRows, List.forall_mem_cons, and_allOnes_byte]
    exact ⟨hcarry, hinr, hdcr, hcma, hhalt, hmov, hindirect, halu, hlxi, hmvi, hnop, nofun⟩

end Sys2Proof
end

section
/-! Increment and decrement, family 41_inr_dcr.md: what the two share in the numbers of the result (R72, R73), and the
opcode of each slot. -/

namespace Sys2Proof.Machine

/-- Adding modulo 256 on the numbers is adding the bytes. -/
theorem ofNat_toNat_add_mod (v : Byte) (n : Nat) :
    BitVec.ofNat 8 ((v.toNat + n) % 256) = v + BitVec.ofNat 8 n := by
  apply BitVec.eq_of_toNat_eq
  simp

/-- What `INR` and `DCR` share, in the numbers of the result; `CF` is the old one (41_inr_dcr.md R72, R73). -/
theorem State.replaceSlot_eq_toNat (s : State) (r : RegSel) (res : Byte) (ac : Bool) :
    s.replaceSlot r res ac =
      { s.writeOp r res with
        flagZ := decide (res.toNat = 0)
        flagS := decide (128 ≤ res.toNat)
        flagP := evenOnes res
        flagCF := s.flagCF
        flagAC := acUnder Config.acPolicy ac s.flagAC
        pc := s.pc + 1 } := by
  rw [State.replaceSlot_eq, beq_zero_eq_decide_toNat, getLsbD_seven_eq_decide_toNat, parity8_eq_evenOnes,
    ← State.writeOp_flagCF s r res]

/-- `00 ddd 100` is the increment of the slot of code `ddd` (30_encoding.md R55, R57). -/
theorem opForm_inr (r : RegSel) : opForm (0b00#2 ++ r.code ++ 0b100#3) = .whole (.inr r) := by cases r <;> rfl

/-- `00 ddd 101` is the decrement of the slot of code `ddd` (30_encoding.md R55, R57). -/
theorem opForm_dcr (r : RegSel) : opForm (0b00#2 ++ r.code ++ 0b101#3) = .whole (.dcr r) := by cases r <;> rfl

/-- `INR` replaces the slot by its value plus 1 (41_inr_dcr.md R72). -/
theorem exec_inr (r : RegSel) (s : State) :
    exec (.inr r) s = .next (s.replaceSlot r (s.readOp r + 1) (acOfInr (s.readOp r + 1))) := rfl

/-- `DCR` replaces the slot by its value plus 255 (41_inr_dcr.md R73). -/
theorem exec_dcr (r : RegSel) (s : State) :
    exec (.dcr r) s = .next (s.replaceSlot r (s.readOp r + 255) (acOfDcr (s.readOp r + 255))) := rfl

/-! ## The statements -/

/-- Settles O13: the result is the sum of the bytes, and the next state is the shared one. -/
theorem inrAddsOneAndSetsZSP : Obligations.InrAddsOneAndSetsZSP := by
  refine fun r => ⟨decode_whole (opForm_inr r), fun s => ?_⟩
  rw [ofNat_toNat_add_mod]
  exact (exec_inr r s).trans (congrArg Host.Outcome.next (s.replaceSlot_eq_toNat r _ _))

/-- Settles O14: the result is the sum of the bytes, and the next state is the shared one. -/
theorem dcrSubtractsOneAndSetsZSP : Obligations.DcrSubtractsOneAndSetsZSP := by
  refine fun r => ⟨decode_whole (opForm_dcr r), fun s => ?_⟩
  rw [ofNat_toNat_add_mod]
  exact (exec_dcr r s).trans (congrArg Host.Outcome.next (s.replaceSlot_eq_toNat r _ _))

end Sys2Proof.Machine
end

section
/-! Accumulator complement, family 42_cma.md: the inverted byte as a number (R74) and the next state of `CMA`. -/

namespace Sys2Proof.Machine

/-- Inverting the bits of a byte is subtracting it from 255: no borrow leaves the byte (42_cma.md R74). -/
theorem not_eq_ofNat_sub_toNat (v : Byte) : ~~~v = BitVec.ofNat 8 (255 - v.toNat) := by
  apply BitVec.eq_of_toNat_eq
  have hlt : 255 - v.toNat < 2 ^ 8 := by omega
  rw [BitVec.toNat_not, BitVec.toNat_ofNat, Nat.mod_eq_of_lt hlt]

/-- `CMA` inverts `A` and advances `PC`, and writes no other field (42_cma.md R74). -/
theorem exec_cma (s : State) : exec .cma s = .next { s with a := ~~~s.a, pc := s.pc + 1 } := rfl

/-! ## The statement -/

/-- Settles O15: the next state has the inverted `A`, which is the number `255 - A`. -/
theorem cmaComplementsAccumulatorOnly : Obligations.CmaComplementsAccumulatorOnly := by
  refine ⟨decode_whole rfl, fun s => ?_⟩
  rw [exec_cma, not_eq_ofNat_sub_toNat]

end Sys2Proof.Machine
end

section
/-! Move immediate, family 47_mvi.md: the opcode of each slot, the immediate the fetch reads, and the next state of
`MVI` as an instruction and as a step (R92). -/

namespace Sys2Proof.Machine

/-- `00 ddd 110` is the immediate move into the slot of code `ddd` (30_encoding.md R55, R57). -/
theorem opForm_mvi (r : RegSel) : opForm (0b00#2 ++ r.code ++ 0b110#3) = .needsD8 r := by cases r <;> rfl

/-- The fetch of a form with an 8-bit immediate reads it at `PC + 1` modulo 65536 (30_encoding.md R56). -/
theorem State.fetch_of_needsD8 {s : State} {r : RegSel} (hform : opForm s.opcode = .needsD8 r) :
    s.fetch = .mvi r (s.read (s.pc + 1)) := by
  rw [State.fetch, hform]
  rfl

/-- `WriteOp` neither reads nor writes `LASTOP`: noting the opcode first or last is one state (10_state.md R21, R31). -/
theorem State.writeOp_setLastop (s : State) (op : Option Byte) (r : RegSel) (v : Byte) :
    (s.setLastop op).writeOp r v = (s.writeOp r v).setLastop op := by cases r <;> rfl

/-- `MVI` writes the slot and advances `PC` by 2 (47_mvi.md R92). -/
theorem exec_mvi (r : RegSel) (d8 : Byte) (s : State) :
    exec (.mvi r d8) s = .next { s.writeOp r d8 with pc := s.pc + 2 } := by
  rw [← State.writeOp_pc s r d8]
  rfl

/-- `MVI` after the opcode was noted: the slot, `PC` and `LASTOP` (47_mvi.md R92, 10_state.md R31). -/
theorem exec_mvi_noteOpcode (r : RegSel) (d8 : Byte) (s : State) :
    exec (.mvi r d8) s.noteOpcode = .next { s.writeOp r d8 with pc := s.pc + 2, lastop := some s.opcode } := by
  rw [exec_mvi, State.noteOpcode, State.writeOp_setLastop]
  rfl

/-! ## The statement -/

/-- Settles O29: the step of a running core is `MVI` with the byte at `PC + 1`, after the opcode was noted. -/
theorem mviWritesImmediateToSlot : Obligations.MviWritesImmediateToSlot := by
  refine fun r d8 => ⟨decode_needsD8 (opForm_mvi r) d8, exec_mvi r d8, fun s hrunning hop hd8 => ?_⟩
  have hform : opForm s.opcode = .needsD8 r := (congrArg opForm hop).trans (opForm_mvi r)
  rw [step_of_running hrunning, State.fetch_of_needsD8 hform, hd8]
  exact exec_mvi_noteOpcode r d8 s

end Sys2Proof.Machine
end

section
/-! No operation, family 48_nop_unimplemented.md: the fetch of a one-byte form, the form of `0x00`, and the next state of
`NOP` as an instruction and as a step (R93). -/

namespace Sys2Proof.Machine

/-- The fetch of a one-byte form takes the instruction from the opcode alone (30_encoding.md R53). -/
theorem State.fetch_of_whole {s : State} {i : Instr} (hform : opForm s.opcode = .whole i) : s.fetch = i := by
  rw [State.fetch, hform]

/-- `0x00` is `NOP` (30_encoding.md R55, R57). -/
theorem opForm_nop : opForm 0x00 = .whole .nop := rfl

/-- `NOP` advances `PC`, and writes no other field (48_nop_unimplemented.md R93). -/
theorem exec_nop (s : State) : exec .nop s = .next { s with pc := s.pc + 1 } := rfl

/-- `NOP` after the opcode was noted: `PC` and `LASTOP` (48_nop_unimplemented.md R93, 10_state.md R31). -/
theorem exec_nop_noteOpcode (s : State) :
    exec .nop s.noteOpcode = .next { s with pc := s.pc + 1, lastop := some s.opcode } := exec_nop s.noteOpcode

/-! ## The statement -/

/-- Settles O30: the step of a running core with `0x00` at `PC` is `NOP`, after the opcode was noted. -/
theorem nopChangesOnlyPc : Obligations.NopChangesOnlyPc := by
  refine ⟨decode_whole opForm_nop, exec_nop, fun s hrunning hop => ?_⟩
  have hopcode : s.opcode = 0x00 := hop
  have hform : opForm s.opcode = .whole .nop := (congrArg opForm hopcode).trans opForm_nop
  rw [step_of_running hrunning, State.fetch_of_whole hform, exec_nop_noteOpcode, hopcode]

end Sys2Proof.Machine
end

section
/-! The round trip of encoder and decoder (30_encoding.md R53 to R66): the form of each encoding, and the encoding of each
form. -/

namespace Sys2Proof

open Sys2Proof.Machine

/-! ## The form of each encoding -/

/-- Every move but `M` to `M` stands for an encoding (30_encoding.md R64). -/
theorem wf_mov_iff {dst src : RegSel} : (Instr.mov dst src).wf = true ↔ ¬(dst = .m ∧ src = .m) := by
  simp [Instr.wf, imp_iff_not_or]

/-- `01 ddd sss` is the move between the slots of the two codes, apart from `M` to `M` (30_encoding.md R55, R64). -/
theorem opForm_mov {dst src : RegSel} (hwf : ¬(dst = .m ∧ src = .m)) :
    opForm (0b01#2 ++ dst.code ++ src.code) = .whole (.mov dst src) := by
  cases dst <;> cases src
  case m.m => exact absurd ⟨rfl, rfl⟩ hwf
  all_goals rfl

/-- `000 p 0010` is the store through the pair of bit `p` (30_encoding.md R55, R61). -/
theorem opForm_stax (rp : IndirectPair) : opForm (0b000#3 ++ rp.bit ++ 0b0010#4) = .whole (.stax rp) := by
  cases rp <;> rfl

/-- `000 p 1010` is the load through the pair of bit `p` (30_encoding.md R55, R61). -/
theorem opForm_ldax (rp : IndirectPair) : opForm (0b000#3 ++ rp.bit ++ 0b1010#4) = .whole (.ldax rp) := by
  cases rp <;> rfl

/-- `10 aaa sss` is the ALU instruction of selector `aaa` on the slot of code `sss` (30_encoding.md R55, R60). -/
theorem opForm_encodeAlu (selector : BitVec 3) (r : RegSel) :
    opForm (encodeAlu selector r) = .whole (aluInstr selector r) := by
  revert selector
  cases r <;> decide

/-- `00 rr 0001` is the load of the pair of code `rr` (30_encoding.md R55, R59). -/
theorem opForm_lxi (rp : RegPair) : opForm (0b00#2 ++ rp.code ++ 0b0001#4) = .needsD16 rp := by cases rp <;> rfl

/-- Each of the 92 values is the unimplemented instruction of that byte (30_encoding.md R63). -/
theorem opForm_unimpl : ∀ op : Byte, isUnimplemented op = true → opForm op = .whole (.unimpl op) := by decide

/-! ## The unimplemented opcodes -/

/-- An opcode byte is unimplemented when it is `0xC0` or above or listed (30_encoding.md R63). -/
theorem isUnimplemented_iff (op : Byte) : isUnimplemented op = true ↔ (op.toNat ≥ 0xC0 ∨ op ∈ unimplementedLow) := by
  simp [isUnimplemented, or_comm]

/-- The twelfth class of R57 is the 92 values of R63. -/
theorem classify_eq_unimplemented_iff :
    ∀ op : Byte, classify op = .unimplemented ↔ isUnimplemented op = true := by decide

/-! ## Immediates -/

/-- Two bytes as a 16-bit value are the number `hi * 256 + lo` (10_state.md R18). -/
theorem pairOf_eq_wordOf (hi lo : Byte) : pairOf hi lo = wordOf hi lo := by
  rw [wordOf, ← pairOf_toNat, BitVec.ofNat_toNat, BitVec.setWidth_eq]

/-- The bytes of a 16-bit immediate, low byte first, make it up again (30_encoding.md R56). -/
theorem d16Of_extract (d16 : Word) : d16Of (d16.extractLsb' 0 8) (d16.extractLsb' 8 8) = d16 := pairOf_extract d16

/-! ## The encoding of each form -/

/-- The opcode byte of a form, as the format prints it (30_encoding.md R55). -/
def OpForm.opcodeBytes : OpForm → List Byte
  | .whole i => encode i
  | .needsD8 r => [0b00#2 ++ r.code ++ 0b110#3]
  | .needsD16 rp => [0b00#2 ++ rp.code ++ 0b0001#4]

/-- Whether the instruction of a form is well-formed, whatever its immediate. -/
def OpForm.wf : OpForm → Bool
  | .whole i => i.wf
  | .needsD8 _ | .needsD16 _ => true

/-- No bit of an opcode byte is dropped: the format of its form prints it. -/
theorem opForm_opcodeBytes : ∀ op : Byte, (opForm op).opcodeBytes = [op] := by decide

/-- No opcode byte has the form of a term that `Instr.wf` refuses (30_encoding.md R63, R64). -/
theorem opForm_wf : ∀ op : Byte, (opForm op).wf = true := by decide

/-- A whole instruction encodes to the opcode byte it was read from. -/
theorem encode_of_whole {op : Byte} {i : Instr} (hform : opForm op = .whole i) : encode i = [op] := by
  simpa [hform, OpForm.opcodeBytes] using opForm_opcodeBytes op

/-- A whole instruction read from an opcode byte is well-formed. -/
theorem wf_of_whole {op : Byte} {i : Instr} (hform : opForm op = .whole i) : i.wf = true := by
  simpa [hform, OpForm.wf] using opForm_wf op

/-- Only `00 ddd 110` has an 8-bit immediate (30_encoding.md R55, R57). -/
theorem opcode_of_needsD8 {op : Byte} {r : RegSel} (hform : opForm op = .needsD8 r) :
    (0b00#2 ++ r.code ++ 0b110#3 : Byte) = op := by
  simpa [hform, OpForm.opcodeBytes] using opForm_opcodeBytes op

/-- Only `00 rr 0001` has a 16-bit immediate (30_encoding.md R55, R57). -/
theorem opcode_of_needsD16 {op : Byte} {rp : RegPair} (hform : opForm op = .needsD16 rp) :
    (0b00#2 ++ rp.code ++ 0b0001#4 : Byte) = op := by
  simpa [hform, OpForm.opcodeBytes] using opForm_opcodeBytes op

/-! ## The length of each form -/

/-- An instruction has one, two or three bytes (30_encoding.md R53). -/
theorem OpForm.length_bounds (form : OpForm) : 1 ≤ form.length ∧ form.length ≤ 3 := by
  cases form <;> simp [OpForm.length]

/-! ## The statements -/

/-- Settles O38, one case for each format: the form of the opcode byte names the instruction, the immediate follows. -/
theorem decodeOfEncodeIsInstruction : Obligations.DecodeOfEncodeIsInstruction := by
  intro i rest hwf
  cases i with
  | inr r => exact decode_whole (opForm_inr r) rest
  | dcr r => exact decode_whole (opForm_dcr r) rest
  | mov dst src => exact decode_whole (opForm_mov (wf_mov_iff.mp hwf)) rest
  | stax rp => exact decode_whole (opForm_stax rp) rest
  | ldax rp => exact decode_whole (opForm_ldax rp) rest
  | add r | adc r | sub r | sbb r | ana r | xra r | ora r | cmp r => exact decode_whole (opForm_encodeAlu _ r) rest
  | lxi rp d16 =>
    have hdec := decode_needsD16 (opForm_lxi rp) (d16.extractLsb' 0 8) (d16.extractLsb' 8 8) rest
    rwa [d16Of_extract] at hdec
  | mvi r d8 => exact decode_needsD8 (opForm_mvi r) d8 rest
  | unimpl op => exact decode_whole (opForm_unimpl op hwf) rest
  | stc | cmc | cma | hlt | nop => exact decode_whole rfl rest

/-- Settles O39: what `decode` read is an opcode byte, which the format of its form prints, and the immediate's bytes. -/
theorem decodedBytesAreTheEncoding : Obligations.DecodedBytesAreTheEncoding := by
  intro bytes i rest hdec
  rcases decode_cases hdec with ⟨op, hform, rfl⟩ | ⟨op, r, d8, hform, rfl, rfl⟩ | ⟨op, rp, lo, hi, hform, rfl, rfl⟩
  · exact ⟨wf_of_whole hform, by rw [encode_of_whole hform]; rfl⟩
  · exact ⟨rfl, by rw [encode, opcode_of_needsD8 hform]; rfl⟩
  · exact ⟨rfl, by rw [encode, opcode_of_needsD16 hform, d16Of, pairOf_low, pairOf_high]; rfl⟩

/-- Settles O32: each of the fourteen words is an encoding. -/
theorem writtenOutWordsDecode : Obligations.WrittenOutWordsDecode :=
  ⟨rfl, rfl, rfl, rfl, rfl, rfl, rfl, rfl, rfl, rfl, rfl, rfl, rfl, rfl⟩

/-- Settles O34: the class of each opcode byte is computed, and the unimplemented ones counted. -/
theorem exactlyListedOpcodesAreUnimplemented : Obligations.ExactlyListedOpcodesAreUnimplemented :=
  ⟨fun op => (classify_eq_unimplemented_iff op).trans (isUnimplemented_iff op), by decide⟩

end Sys2Proof
end

section
/-! The next state of each instruction, and what every instruction does to each part of the state: `PC`, `SP`, `HALTED`,
`LASTOP`, memory (20_memory.md R41). What the step does is read off these. -/

namespace Sys2Proof.Machine

/-! ## The next state -/

/-- The next state of an instruction under the policies in force; `exec_eq_next_after` ties it to `exec`. -/
def State.after (s : State) : Instr → State
  | .stc => (s.setCF true).advance 1
  | .cmc => (s.setCF (!s.flagCF)).advance 1
  | .inr r => s.replaceSlot r (s.readOp r + 1) (acOfInr (s.readOp r + 1))
  | .dcr r => s.replaceSlot r (s.readOp r + 255) (acOfDcr (s.readOp r + 255))
  | .cma => (s.setA (~~~s.a)).advance 1
  | .hlt => (s.advance 1).setHalted true
  | .mov dst src => (s.writeOp dst (s.readOp src)).advance 1
  | .stax rp => (s.write (s.indirectAddr rp) s.a).advance 1
  | .ldax rp => (s.setA (s.read (s.indirectAddr rp))).advance 1
  | .add r => s.aluStep .add r
  | .adc r => s.aluStep .adc r
  | .sub r => s.aluStep .sub r
  | .sbb r => s.aluStep .sbb r
  | .ana r => s.aluStep .ana r
  | .xra r => s.aluStep .xra r
  | .ora r => s.aluStep .ora r
  | .cmp r => s.aluStep .cmp r
  | .lxi rp d16 => (s.writePair rp d16).advance 3
  | .mvi r d8 => (s.writeOp r d8).advance 2
  | .nop => s.advance 1
  | .unimpl _ => s.advance 1

/-- Every instruction answers its next state. -/
theorem exec_eq_next_after (i : Instr) (s : State) : exec i s = .next (s.after i) := by cases i <;> rfl

/-- What an instruction answers is its next state. -/
theorem exec_eq_next_iff {i : Instr} {s t : State} : exec i s = .next t ↔ s.after i = t := by
  rw [exec_eq_next_after, Host.Outcome.next.injEq]

/-! ## Program counter, stack pointer, hidden state -/

/-- `PC` advances by the number of bytes of the instruction (10_state.md R22). -/
theorem State.after_pc (s : State) (i : Instr) :
    (s.after i).pc = s.pc + BitVec.ofNat 16 (encode i).length := by
  cases i <;> simp [State.after, encode]

/-- Only `HLT` sets `HALTED` (10_state.md R30). -/
theorem State.after_halted (s : State) (i : Instr) :
    (s.after i).halted = if i = .hlt then true else s.halted := by
  cases i <;> simp [State.after]

/-- No instruction writes `LASTOP` (10_state.md R31). -/
theorem State.after_lastop (s : State) (i : Instr) : (s.after i).lastop = s.lastop := by
  cases i <;> simp [State.after]

/-- A pair other than `SP` is no `SP` (10_state.md R23). -/
theorem State.writePair_sp_of_ne {rp : RegPair} (hrp : rp ≠ .sp) (s : State) (v : Word) :
    (s.writePair rp v).sp = s.sp := by
  cases rp
  case sp => exact absurd rfl hrp
  all_goals rfl

/-- Only `LXI SP` writes `SP` (10_state.md R23). -/
theorem State.after_sp {i : Instr} (hi : ∀ d16 : Word, i ≠ .lxi .sp d16) (s : State) :
    (s.after i).sp = s.sp := by
  cases i
  case lxi rp d16 => exact State.writePair_sp_of_ne (fun hrp => hi d16 (by rw [hrp])) s d16
  all_goals simp [State.after]

/-! ## Memory -/

/-- Memory after an instruction that stores `v` at an address, or stores nothing. -/
def Memory.storeAt (m : Memory) (addr : Option Word) (v : Byte) : Memory :=
  match addr with
  | none => m
  | some addr => Memory.write m addr v

theorem Memory.wf_storeAt {m : Memory} (hwf : m.wf = true) (addr : Option Word) (v : Byte) :
    Memory.wf (Memory.storeAt m addr v) = true := by
  cases addr with
  | none => exact hwf
  | some addr => exact Memory.wf_write hwf addr v

/-- Only the address stored to reads another byte (20_memory.md R36, R37). -/
theorem Memory.read_storeAt {m : Memory} (hwf : m.wf = true) (addr : Option Word) (other : Word) (v : Byte) :
    Memory.read (Memory.storeAt m addr v) other = if addr = some other then v else Memory.read m other := by
  cases addr with
  | none => rfl
  | some addr => simp only [Memory.storeAt, Memory.read_write hwf, Option.some.injEq, eq_comm]

/-- `ReadOp` under another memory that reads alike at the slot's address. -/
theorem State.readOp_setMem {s : State} {r : RegSel} {m : Memory}
    (hread : ∀ addr, s.slotAddr r = some addr → Memory.read m addr = s.read addr) :
    (s.setMem m).readOp r = s.readOp r := by
  cases r
  case m => exact hread s.hl rfl
  all_goals rfl

/-- `WriteOp` under another memory: the slot's address is stored to, nothing else depends on memory. -/
theorem State.writeOp_setMem (s : State) (r : RegSel) (v : Byte) (m : Memory) :
    (s.setMem m).writeOp r v = (s.writeOp r v).setMem (m.storeAt (s.slotAddr r) v) := by
  cases r <;> rfl

theorem State.writePair_setMem (s : State) (rp : RegPair) (v : Word) (m : Memory) :
    (s.setMem m).writePair rp v = (s.writePair rp v).setMem m := by
  cases rp <;> rfl

theorem State.replaceSlot_setMem (s : State) (r : RegSel) (res : Byte) (ac : Bool) (m : Memory) :
    (s.setMem m).replaceSlot r res ac = (s.replaceSlot r res ac).setMem (m.storeAt (s.slotAddr r) res) := by
  rw [State.replaceSlot, State.writeOp_setMem]
  rfl

/-- The ALU group under another memory that reads alike at the operand's address (45_alu.md R79). -/
theorem State.aluStep_setMem {s : State} {r : RegSel} {m : Memory} (op : AluOp)
    (hread : ∀ addr, s.slotAddr r = some addr → Memory.read m addr = s.read addr) :
    (s.setMem m).aluStep op r = (s.aluStep op r).setMem m := by
  rw [State.aluStep_eq, State.aluStep_eq, State.readOp_setMem hread]
  rfl

/-- The same instruction under another memory that reads alike at the address of its data read: the same byte goes to
the same address, and every other field is the same (20_memory.md R41). -/
theorem State.after_setMem (s : State) (i : Instr) :
    ∃ v : Byte, ∀ m : Memory, (∀ addr, s.dataRead i = some addr → Memory.read m addr = s.read addr) →
      (s.setMem m).after i = (s.after i).setMem (m.storeAt (s.dataWrite i) v) := by
  cases i with
  | inr r =>
    refine ⟨s.readOp r + 1, fun m hread => ?_⟩
    rw [State.after, State.readOp_setMem hread, State.replaceSlot_setMem]
    rfl
  | dcr r =>
    refine ⟨s.readOp r + 255, fun m hread => ?_⟩
    rw [State.after, State.readOp_setMem hread, State.replaceSlot_setMem]
    rfl
  | mov dst src =>
    refine ⟨s.readOp src, fun m hread => ?_⟩
    rw [State.after, State.readOp_setMem hread, State.writeOp_setMem]
    rfl
  | mvi r d8 =>
    refine ⟨d8, fun m _ => ?_⟩
    rw [State.after, State.writeOp_setMem]
    rfl
  | stax rp => exact ⟨s.a, fun m _ => by cases rp <;> rfl⟩
  | ldax rp =>
    refine ⟨0, fun m hread => ?_⟩
    have haddr : (s.setMem m).read ((s.setMem m).indirectAddr rp) = s.read (s.indirectAddr rp) := by
      cases rp <;> exact hread _ rfl
    rw [State.after, haddr]
    rfl
  | add r | adc r | sub r | sbb r | ana r | xra r | ora r | cmp r =>
    exact ⟨0, fun m hread => State.aluStep_setMem _ hread⟩
  | lxi rp d16 =>
    refine ⟨0, fun m _ => ?_⟩
    rw [State.after, State.writePair_setMem]
    rfl
  | stc | cmc | cma | hlt | nop | unimpl op => exact ⟨0, fun m _ => rfl⟩

/-- An instruction stores one byte at the address of its data write, or leaves memory as it is (20_memory.md R41). -/
theorem State.after_mem (s : State) (i : Instr) :
    ∃ v : Byte, (s.after i).mem = s.mem.storeAt (s.dataWrite i) v := by
  obtain ⟨v, hafter⟩ := s.after_setMem i
  exact ⟨v, congrArg State.mem (hafter s.mem fun _ _ => rfl)⟩

/-- Every instruction keeps the canonical form of memory. -/
theorem State.after_mem_wf {s : State} (hwf : s.mem.wf = true) (i : Instr) : (s.after i).mem.wf = true := by
  obtain ⟨v, hmem⟩ := s.after_mem i
  rw [hmem]
  exact Memory.wf_storeAt hwf _ v

/-- Every address but that of the data write reads as before (20_memory.md R41). -/
theorem State.after_read_of_ne {s : State} (hwf : s.mem.wf = true) {i : Instr} {addr : Word}
    (hne : s.dataWrite i ≠ some addr) : (s.after i).read addr = s.read addr := by
  obtain ⟨v, hmem⟩ := s.after_mem i
  rw [State.read, hmem, Memory.read_storeAt hwf, if_neg hne]
  rfl

end Sys2Proof.Machine
end

section
/-! The step (00_scope.md R6): the one next state it answers, and what a step does to `PC`, `SP`, `HALTED`, `LASTOP` and
memory. -/

namespace Sys2Proof.Machine

/-! ## The instruction fetched -/

/-- Adding modulo 65536 on the numbers is adding the words (20_memory.md R38). -/
theorem ofNat_toNat_add_mod_word (w : Word) (n : Nat) :
    BitVec.ofNat 16 ((w.toNat + n) % 65536) = w + BitVec.ofNat 16 n := by
  apply BitVec.eq_of_toNat_eq
  simp

/-- The fetch of a form with a 16-bit immediate reads it at `PC + 1` and `PC + 2` modulo 65536 (30_encoding.md R56). -/
theorem State.fetch_of_needsD16 {s : State} {rp : RegPair} (hform : opForm s.opcode = .needsD16 rp) :
    s.fetch = .lxi rp (d16Of (s.read (s.pc + 1)) (s.read (s.pc + 2))) := by
  rw [State.fetch, hform]
  rfl

/-- The fetch, by the form of the opcode byte (30_encoding.md R53, R56). -/
theorem State.fetch_cases (s : State) :
    (∃ i, opForm s.opcode = .whole i ∧ s.fetch = i) ∨
    (∃ r, opForm s.opcode = .needsD8 r ∧ s.fetch = .mvi r (s.read (s.pc + 1))) ∨
    (∃ rp, opForm s.opcode = .needsD16 rp ∧
      s.fetch = .lxi rp (d16Of (s.read (s.pc + 1)) (s.read (s.pc + 2)))) := by
  cases hform : opForm s.opcode with
  | whole i => exact .inl ⟨i, rfl, State.fetch_of_whole hform⟩
  | needsD8 r => exact .inr (.inl ⟨r, rfl, State.fetch_of_needsD8 hform⟩)
  | needsD16 rp => exact .inr (.inr ⟨rp, rfl, State.fetch_of_needsD16 hform⟩)

/-- The fetch is what the three bytes from `PC` on decode to (30_encoding.md R53). -/
theorem State.decode_bytes_at_pc (s : State) :
    ∃ rest, decode [s.read s.pc, s.read (s.pc + 1), s.read (s.pc + 2)] = .ok (s.fetch, rest) := by
  rcases s.fetch_cases with ⟨i, hform, hfetch⟩ | ⟨r, hform, hfetch⟩ | ⟨rp, hform, hfetch⟩
  · exact ⟨_, hfetch ▸ decode_whole hform _⟩
  · exact ⟨_, hfetch ▸ decode_needsD8 hform _ _⟩
  · exact ⟨_, hfetch ▸ decode_needsD16 hform _ _ _⟩

/-- The first byte of the encoding of the instruction fetched is the opcode byte. -/
theorem State.encode_fetch_head (s : State) : (encode s.fetch).head? = some s.opcode := by
  rcases s.fetch_cases with ⟨i, hform, hfetch⟩ | ⟨r, hform, hfetch⟩ | ⟨rp, hform, hfetch⟩
  · rw [hfetch, encode_of_whole hform]
    rfl
  · rw [hfetch, ← opcode_of_needsD8 hform]
    rfl
  · rw [hfetch, ← opcode_of_needsD16 hform]
    rfl

/-- The instruction fetched has the length of its opcode byte (30_encoding.md R53). -/
theorem State.encode_fetch_length (s : State) : (encode s.fetch).length = opcodeLength s.opcode := by
  rw [← opForm_length]
  rcases s.fetch_cases with ⟨i, hform, hfetch⟩ | ⟨r, hform, hfetch⟩ | ⟨rp, hform, hfetch⟩
  · rw [hfetch, hform, encode_of_whole hform]
    rfl
  · rw [hfetch, hform]
    rfl
  · rw [hfetch, hform]
    rfl

/-- `HLT` is fetched exactly at the opcode `0x76` (30_encoding.md R64). -/
theorem State.fetch_eq_hlt_iff (s : State) : s.fetch = .hlt ↔ s.opcode = 0x76 := by
  constructor
  · intro hfetch
    simpa [hfetch, encode, eq_comm] using s.encode_fetch_head
  · intro hop
    exact State.fetch_of_whole (by rw [hop]; rfl)

/-- `LXI SP` is fetched at the opcode `0x31` only (30_encoding.md R59). -/
theorem State.opcode_of_fetch_lxi_sp {s : State} {d16 : Word} (hfetch : s.fetch = .lxi .sp d16) :
    s.opcode = 0x31 := by
  simpa [hfetch, encode, RegPair.code, eq_comm] using s.encode_fetch_head

/-! ## The next state of a step -/

/-- The next state of a step: a halted core as it is, else the next state of the instruction fetched, `LASTOP` noted
first; `step_eq_next_stepped` ties it to `step`. -/
def State.stepped (s : State) : State := if s.halted then s else s.noteOpcode.after s.fetch

theorem State.stepped_of_halted {s : State} (h : s.halted = true) : s.stepped = s := if_pos h

theorem State.stepped_of_running {s : State} (h : s.halted = false) :
    s.stepped = s.noteOpcode.after s.fetch := if_neg (by simp [h])

/-- Every step answers its next state. -/
theorem step_eq_next_stepped (s : State) : step s = .next s.stepped := by
  cases h : s.halted
  · rw [step_of_running h, State.stepped_of_running h, exec_eq_next_after]
  · rw [step_of_halted h, State.stepped_of_halted h]

/-- What a step answers is its next state. -/
theorem step_eq_next_iff {s t : State} : step s = .next t ↔ s.stepped = t := by
  rw [step_eq_next_stepped, Host.Outcome.next.injEq]

/-! ## The statements -/

/-- Settles O40: the fetch decodes the same three bytes, and what decodes is well-formed. -/
theorem stepRunsDecodedInstruction : Obligations.StepRunsDecodedInstruction := by
  intro s i rest hrunning hdec
  obtain ⟨rest', hfetch⟩ := s.decode_bytes_at_pc
  cases hdec.symm.trans hfetch
  exact ⟨(decodedBytesAreTheEncoding _ _ _ hdec).1, step_of_running hrunning⟩

/-- Settles O41: the next state is a function of the state. -/
theorem everyStepAnswersOneNextState : Obligations.EveryStepAnswersOneNextState :=
  fun s => ⟨s.stepped, step_eq_next_stepped s, fun _ ht => (step_eq_next_iff.mp ht).symm⟩

/-- Settles O42: `PC` advances by the length of the encoding of the instruction fetched, which is that of its opcode. -/
theorem stepAdvancesPcByLength : Obligations.StepAdvancesPcByLength := by
  intro s t hstep
  obtain rfl := step_eq_next_iff.mp hstep
  cases h : s.halted
  · rw [State.stepped_of_running h, State.after_pc, State.encode_fetch_length, ← ofNat_toNat_add_mod_word]
    rfl
  · rw [State.stepped_of_halted h]
    rfl

/-- Settles O43: the step notes the opcode, and no instruction writes `LASTOP`. -/
theorem stepRecordsOpcodeInLastop : Obligations.StepRecordsOpcodeInLastop := by
  intro s t hstep
  obtain rfl := step_eq_next_iff.mp hstep
  cases h : s.halted
  · rw [State.stepped_of_running h, State.after_lastop]
    rfl
  · rw [State.stepped_of_halted h]
    rfl

/-- Settles O44: of the instructions only `HLT` halts, and only `0x76` is fetched as `HLT`. -/
theorem onlyHaltOpcodeHalts : Obligations.OnlyHaltOpcodeHalts := by
  intro s t hrunning hstep
  obtain rfl := step_eq_next_iff.mp hstep
  rw [← State.opcode, ← s.fetch_eq_hlt_iff, State.stepped_of_running hrunning, State.after_halted,
    State.noteOpcode_halted, hrunning]
  simp

/-- Settles O45: of the instructions only `LXI SP` writes `SP`, and only `0x31` is fetched as `LXI SP`. -/
theorem onlyLxiSpChangesSp : Obligations.OnlyLxiSpChangesSp := by
  intro s t hstep hsp
  obtain rfl := step_eq_next_iff.mp hstep
  cases h : s.halted
  · refine ⟨rfl, ?_⟩
    by_contra hop
    have hfetch : ∀ d16 : Word, s.fetch ≠ .lxi .sp d16 := fun _ hlxi => hop (State.opcode_of_fetch_lxi_sp hlxi)
    exact hsp (by rw [State.stepped_of_running h, State.after_sp hfetch, State.noteOpcode_sp])
  · exact absurd (by rw [State.stepped_of_halted h]) hsp

/-- Settles O46: memory stays canonical under every instruction; a core halted by this step fetched `HLT`, so its opcode
`0x76` was noted. -/
theorem stepKeepsInv : Obligations.StepKeepsInv := by
  intro s t hinv hstep
  obtain rfl := step_eq_next_iff.mp hstep
  cases h : s.halted
  · rw [State.stepped_of_running h]
    refine ⟨State.after_mem_wf (s := s.noteOpcode) hinv.canonical _, fun hhalted => ?_⟩
    have hhlt : s.fetch = .hlt := by simpa [State.after_halted, h] using hhalted
    rw [State.after_lastop, State.noteOpcode_lastop, s.fetch_eq_hlt_iff.mp hhlt]
  · rwa [State.stepped_of_halted h]

/-- Settles O19, by induction on the number of steps: the step of a halted core answers the same state. -/
theorem haltedCoreStaysAsItIs : Obligations.HaltedCoreStaysAsItIs := by
  intro k s h
  induction k with
  | zero => exact runsTo_zero.mpr rfl
  | succ k ih => exact runsTo_succ.mpr ⟨s, step_of_halted h, ih⟩

/-- Settles O37: the form of the opcode byte names the slot or the pair, the fetch reads the bytes after it. -/
theorem fetchAssemblesImmediates : Obligations.FetchAssemblesImmediates := by
  intro s
  rw [ofNat_toNat_add_mod_word, ofNat_toNat_add_mod_word]
  constructor
  · intro r hop
    exact State.fetch_of_needsD8 ((congrArg opForm hop).trans (opForm_mvi r))
  · intro rp hop
    rw [← pairOf_eq_wordOf]
    exact State.fetch_of_needsD16 ((congrArg opForm hop).trans (opForm_lxi rp))

end Sys2Proof.Machine
end

section
/-! What a step reads and writes (20_memory.md R41, R42), and what never reaches a program (70_reset_and_hazards.md
R130): the two statements of noninterference. -/

namespace Sys2Proof.Machine

/-! ## The access list -/

theorem State.accesses_of_halted {s : State} (h : s.halted = true) : s.accesses = [] := by rw [State.accesses, h]

theorem State.accesses_of_running {s : State} (h : s.halted = false) :
    s.accesses = s.fetchAddrs.map .fetch ++ (s.dataRead s.fetch).toList.map .read ++
      (s.dataWrite s.fetch).toList.map .write := by rw [State.accesses, h]

/-- The list fetches the addresses of the instruction's bytes. -/
theorem State.fetch_mem_accesses_iff {s : State} (h : s.halted = false) {addr : Word} :
    .fetch addr ∈ s.accesses ↔ addr ∈ s.fetchAddrs := by simp [State.accesses_of_running h]

/-- The list reads the address of the instruction's data read. -/
theorem State.read_mem_accesses_iff {s : State} (h : s.halted = false) {addr : Word} :
    .read addr ∈ s.accesses ↔ s.dataRead s.fetch = some addr := by simp [State.accesses_of_running h]

/-- The list writes the address of the instruction's data write. -/
theorem State.write_mem_accesses_iff {s : State} (h : s.halted = false) {addr : Word} :
    .write addr ∈ s.accesses ↔ s.dataWrite s.fetch = some addr := by simp [State.accesses_of_running h]

/-- The fetched addresses: `PC` and as many after it as the form has operand bytes (30_encoding.md R53). -/
theorem State.operandAddr_mem_fetchAddrs {s : State} {k : Nat} (hk : k < (opForm s.opcode).length) :
    s.operandAddr k ∈ s.fetchAddrs :=
  List.mem_map_of_mem (List.mem_range.mpr hk)

/-- The opcode byte is fetched whatever its form. -/
theorem State.pc_mem_fetchAddrs (s : State) : s.pc ∈ s.fetchAddrs := by
  have hzero : s.operandAddr 0 = s.pc := BitVec.add_zero s.pc
  rw [← hzero]
  exact State.operandAddr_mem_fetchAddrs (opForm s.opcode).length_bounds.1

/-! ## A step under another memory -/

/-- The opcode byte under another memory that reads alike at `PC`. -/
theorem State.opcode_setMem {s : State} {m : Memory}
    (hread : ∀ addr ∈ s.fetchAddrs, Memory.read m addr = s.read addr) : (s.setMem m).opcode = s.opcode :=
  hread s.pc s.pc_mem_fetchAddrs

/-- The fetch under another memory that reads alike at the fetched addresses (20_memory.md R41). -/
theorem State.fetch_setMem {s : State} {m : Memory}
    (hread : ∀ addr ∈ s.fetchAddrs, Memory.read m addr = s.read addr) : (s.setMem m).fetch = s.fetch := by
  have hoperand : ∀ k, k < (opForm s.opcode).length →
      (s.setMem m).read (s.operandAddr k) = s.read (s.operandAddr k) :=
    fun k hk => hread _ (State.operandAddr_mem_fetchAddrs hk)
  rw [State.fetch, State.fetch, State.opcode_setMem hread]
  cases hform : opForm s.opcode with
  | whole i => rfl
  | needsD8 r => exact congrArg (Instr.mvi r) (hoperand 1 (by simp [hform, OpForm.length]))
  | needsD16 rp =>
    have hlo := hoperand 1 (by simp [hform, OpForm.length])
    have hhi := hoperand 2 (by simp [hform, OpForm.length])
    exact congrArg₂ (fun lo hi => Instr.lxi rp (d16Of lo hi)) hlo hhi

/-- Noting the opcode under another memory that reads alike at `PC`. -/
theorem State.noteOpcode_setMem {s : State} {m : Memory}
    (hread : ∀ addr ∈ s.fetchAddrs, Memory.read m addr = s.read addr) :
    (s.setMem m).noteOpcode = s.noteOpcode.setMem m := by
  rw [State.noteOpcode, State.opcode_setMem hread]
  rfl

/-- Noting the opcode moves no data access. -/
theorem State.dataRead_noteOpcode (s : State) (i : Instr) : s.noteOpcode.dataRead i = s.dataRead i := by
  cases i
  case inr r | dcr r | add r | adc r | sub r | sbb r | ana r | xra r | ora r | cmp r => cases r <;> rfl
  case mov _ src => cases src <;> rfl
  case ldax rp => cases rp <;> rfl
  all_goals rfl

theorem State.dataWrite_noteOpcode (s : State) (i : Instr) : s.noteOpcode.dataWrite i = s.dataWrite i := by
  cases i
  case inr r | dcr r | mvi r _ => cases r <;> rfl
  case mov dst _ => cases dst <;> rfl
  case stax rp => cases rp <;> rfl
  all_goals rfl

/-- The step of a running core under another memory that reads alike at every address fetched or read: the same byte
goes to the same address, and every other field is the same (20_memory.md R41). -/
theorem State.stepped_setMem {s : State} (h : s.halted = false) :
    ∃ v : Byte, ∀ m : Memory,
      (∀ addr, .fetch addr ∈ s.accesses ∨ .read addr ∈ s.accesses → Memory.read m addr = s.read addr) →
      (s.setMem m).stepped = s.stepped.setMem (m.storeAt (s.dataWrite s.fetch) v) := by
  obtain ⟨v, hafter⟩ := s.noteOpcode.after_setMem s.fetch
  refine ⟨v, fun m hread => ?_⟩
  have hfetch : ∀ addr ∈ s.fetchAddrs, Memory.read m addr = s.read addr :=
    fun addr haddr => hread addr (.inl ((State.fetch_mem_accesses_iff h).mpr haddr))
  have hdata : ∀ addr, s.noteOpcode.dataRead s.fetch = some addr → Memory.read m addr = s.noteOpcode.read addr := by
    intro addr haddr
    rw [State.dataRead_noteOpcode] at haddr
    exact hread addr (.inr ((State.read_mem_accesses_iff h).mpr haddr))
  rw [State.stepped_of_running h, State.stepped_of_running (s := s.setMem m) h, State.fetch_setMem hfetch,
    State.noteOpcode_setMem hfetch, hafter m hdata, State.dataWrite_noteOpcode]

/-! ## What a program can observe -/

/-- The state with an observable part, its hidden part at fixed values (70_reset_and_hazards.md R130). -/
def Observable.toState (o : Observable) : State :=
  { State.reset with
    a := o.a, b := o.b, c := o.c, d := o.d, e := o.e, h := o.h, l := o.l
    pc := o.pc, flagCF := o.flagCF, mem := o.mem, halted := o.halted }

/-- A slot reads alike in every state with the same observable part. -/
theorem State.readOp_toState (s : State) (r : RegSel) : s.observable.toState.readOp r = s.readOp r := by
  cases r <;> rfl

/-- The observable part of the next state of an instruction depends on the observable part only. -/
theorem State.after_observable (s : State) (i : Instr) :
    (s.after i).observable = (s.observable.toState.after i).observable := by
  cases i with
  | inr r | dcr r => cases r <;> rfl
  | mov dst src =>
    rw [State.after, State.after, State.readOp_toState]
    cases dst <;> rfl
  | stax rp | ldax rp => cases rp <;> rfl
  | add r | adc r | sub r | sbb r | ana r | xra r | ora r | cmp r => cases r <;> rfl
  | lxi rp d16 => cases rp <;> rfl
  | mvi r d8 => cases r <;> rfl
  | stc | cmc | cma | hlt | nop | unimpl op => rfl

/-- The observable part of the next state of a step depends on the observable part only. -/
theorem State.stepped_observable (s : State) : s.stepped.observable = s.observable.toState.stepped.observable := by
  cases h : s.halted
  · rw [State.stepped_of_running h, State.stepped_of_running (s := s.observable.toState) h, State.after_observable,
      State.after_observable s.observable.toState.noteOpcode]
    rfl
  · rw [State.stepped_of_halted h, State.stepped_of_halted (s := s.observable.toState) h]
    rfl

/-! ## The statements -/

/-- Settles O50: the list is the fetched addresses and the at most one address of each data access. -/
theorem stepMakesFewOrderedAccesses : Obligations.StepMakesFewOrderedAccesses := by
  intro s
  refine ⟨State.accesses_of_halted, fun h => ?_⟩
  obtain ⟨hpos, hle⟩ := (opForm s.opcode).length_bounds
  rw [opForm_length] at hpos hle
  refine ⟨opcodeLength s.opcode, s.dataRead s.fetch, s.dataWrite s.fetch, rfl, hpos, hle, ?_⟩
  rw [State.accesses_of_running h, State.fetchAddrs, opForm_length, List.map_map]
  rfl

/-- Settles O51: the second state is the first under another memory; its next state is the first one's with the same
byte stored into its own memory. -/
theorem stepDependsOnlyOnBytesItReads : Obligations.StepDependsOnlyOnBytesItReads := by
  intro s s' t t' hwf hwf' hsame hread hstep hstep'
  have hs' : s' = s.setMem s'.mem := by
    rw [← hsame]
    rfl
  obtain rfl := step_eq_next_iff.mp hstep
  obtain rfl := step_eq_next_iff.mp hstep'
  cases h : s.halted
  · obtain ⟨v, hstepped⟩ := State.stepped_setMem h
    have hmem : s.stepped.mem = s.mem.storeAt (s.dataWrite s.fetch) v :=
      congrArg State.mem (hstepped s.mem fun _ _ => rfl)
    have hnext : s'.stepped = s.stepped.setMem (s'.mem.storeAt (s.dataWrite s.fetch) v) := by
      conv_lhs => rw [hs']
      exact hstepped s'.mem hread
    have hreads : ∀ addr, s.stepped.read addr = if s.dataWrite s.fetch = some addr then v else s.read addr := by
      intro addr
      rw [State.read, hmem, Memory.read_storeAt hwf]
      rfl
    refine ⟨by rw [hnext]; rfl, fun addr => ?_, fun addr hnowrite => ?_⟩
    · rw [hnext, State.read, State.setMem_mem, Memory.read_storeAt hwf', hreads]
      simp only [State.write_mem_accesses_iff h]
      split <;> rfl
    · rw [hreads, if_neg (mt (State.write_mem_accesses_iff h).mpr hnowrite)]
  · have h' : s'.halted = true := by rw [hs']; exact h
    rw [State.stepped_of_halted h, State.stepped_of_halted h', State.accesses_of_halted h]
    exact ⟨hsame, fun _ => rfl, fun _ _ => rfl⟩

/-- Settles O52, by induction on the number of steps: equal observable parts have next states of equal observable
parts. -/
theorem hiddenStateNeverReachesObservable : Obligations.HiddenStateNeverReachesObservable := by
  intro k
  induction k with
  | zero =>
    intro s s' t t' hobs hrun hrun'
    rwa [← runsTo_zero.mp hrun, ← runsTo_zero.mp hrun']
  | succ k ih =>
    intro s s' t t' hobs hrun hrun'
    obtain ⟨u, hstep, hrest⟩ := runsTo_succ.mp hrun
    obtain ⟨u', hstep', hrest'⟩ := runsTo_succ.mp hrun'
    refine ih u u' t t' ?_ hrest hrest'
    rw [← step_eq_next_iff.mp hstep, ← step_eq_next_iff.mp hstep', State.stepped_observable, hobs,
      ← State.stepped_observable]

end Sys2Proof.Machine
end

section
/-! The frames of the instructions: registers (10_state.md R17), flags (R25) and memory (20_memory.md R41). -/

namespace Sys2Proof.Machine

/-! ## Registers -/

/-- Advancing `PC` keeps every slot. -/
theorem State.advance_readOp (s : State) (n : Nat) (r : RegSel) : (s.advance n).readOp r = s.readOp r := by
  cases r <;> rfl

theorem State.setCF_readOp (s : State) (v : Bool) (r : RegSel) : (s.setCF v).readOp r = s.readOp r := by
  cases r <;> rfl

theorem State.setHalted_readOp (s : State) (v : Bool) (r : RegSel) : (s.setHalted v).readOp r = s.readOp r := by
  cases r <;> rfl

/-- A memory write keeps the register slots. -/
theorem State.write_readOp (s : State) (addr : Word) (v : Byte) {r : RegSel} (hr : r ≠ .m) :
    (s.write addr v).readOp r = s.readOp r := by
  cases r
  case m => exact absurd rfl hr
  all_goals rfl

/-- `INR` and `DCR` write the slots that `WriteOp` writes. -/
theorem State.replaceSlot_readOp (s : State) (dst : RegSel) (res : Byte) (ac : Bool) (r : RegSel) :
    (s.replaceSlot dst res ac).readOp r = (s.writeOp dst res).readOp r := by
  cases r <;> simp [State.readOp, State.read, State.hl]

/-- The ALU group writes no register but `A`, and a compare not even that (45_alu.md R80, R88). -/
theorem State.aluStep_readOp (s : State) {op : AluOp} (src : RegSel) {r : RegSel} (hm : r ≠ .m)
    (hr : r ≠ .a ∨ op = .cmp) : (s.aluStep op src).readOp r = s.readOp r := by
  cases r
  case m => exact absurd rfl hm
  case a =>
    obtain rfl : op = .cmp := by simpa using hr
    simp [State.readOp, State.aluStep_eq]
  all_goals simp [State.readOp]

/-- A register other than the two written keeps its value. -/
theorem State.writeOp_writeOp_readOp_ne (s : State) {r₁ r₂ r : RegSel} (v₁ v₂ : Byte) (hr : r ≠ r₁ ∧ r ≠ r₂)
    (hm : r ≠ .m) : ((s.writeOp r₁ v₁).writeOp r₂ v₂).readOp r = s.readOp r := by
  rw [State.writeOp_readOp_ne _ _ _ _ hr.2 hm, State.writeOp_readOp_ne _ _ _ _ hr.1 hm]

/-- `LXI` writes the two registers of its pair, high and low (46_lxi.md R91). -/
theorem State.writePair_readOp (s : State) (v : Word) {rp : RegPair} {r : RegSel} (hm : r ≠ .m)
    (hr : pairWritesReg rp r = false) : (s.writePair rp v).readOp r = s.readOp r := by
  cases rp with
  | bc => exact s.writeOp_writeOp_readOp_ne (r₁ := .b) (r₂ := .c) _ _ (by simpa [pairWritesReg] using hr) hm
  | de => exact s.writeOp_writeOp_readOp_ne (r₁ := .d) (r₂ := .e) _ _ (by simpa [pairWritesReg] using hr) hm
  | hl => exact s.writeOp_writeOp_readOp_ne (r₁ := .h) (r₂ := .l) _ _ (by simpa [pairWritesReg] using hr) hm
  | sp => cases r <;> rfl

/-- A register the instruction does not write keeps its value (10_state.md R17). -/
theorem State.after_readOp (s : State) {i : Instr} {r : RegSel} (hm : r ≠ .m) (hr : writesReg i r = false) :
    (s.after i).readOp r = s.readOp r := by
  cases i with
  | stc | cmc => rw [State.after, State.advance_readOp, State.setCF_readOp]
  | inr dst | dcr dst =>
    rw [State.after, State.replaceSlot_readOp]
    exact s.writeOp_readOp_ne dst r _ (by simpa [writesReg] using hr) hm
  | cma | ldax rp =>
    rw [State.after, State.advance_readOp]
    exact s.writeOp_readOp_ne .a r _ (by simpa [writesReg] using hr) hm
  | mov dst src | mvi dst d8 =>
    rw [State.after, State.advance_readOp]
    exact s.writeOp_readOp_ne dst r _ (by simpa [writesReg] using hr) hm
  | hlt => rw [State.after, State.setHalted_readOp, State.advance_readOp]
  | stax rp => rw [State.after, State.advance_readOp, State.write_readOp _ _ _ hm]
  | add src | adc src | sub src | sbb src | ana src | xra src | ora src =>
    exact s.aluStep_readOp src hm (.inl (by simpa [writesReg] using hr))
  | cmp src => exact s.aluStep_readOp src hm (.inr rfl)
  | lxi rp d16 => rw [State.after, State.advance_readOp, State.writePair_readOp _ _ hm hr]
  | nop | unimpl op => exact s.advance_readOp 1 r

/-! ## Flags -/

/-- The flags are read off the five flag fields (10_state.md R24). -/
theorem State.flag_eq_of_fields {s t : State} (hs : t.flagS = s.flagS) (hz : t.flagZ = s.flagZ)
    (hac : t.flagAC = s.flagAC) (hp : t.flagP = s.flagP) (hcf : t.flagCF = s.flagCF) (f : Flag) :
    t.flag f = s.flag f := by
  cases f <;> assumption

/-- The ALU group holds `AC` (decision D4, log 2). -/
theorem State.aluStep_flagAC (s : State) (op : AluOp) (r : RegSel) : (s.aluStep op r).flagAC = s.flagAC := by
  rw [State.aluStep_eq, acUnder_config]

/-- A flag the instruction does not write keeps its value (10_state.md R25). -/
theorem State.after_flag (s : State) {i : Instr} {f : Flag} (hf : writesFlag i f = false) :
    (s.after i).flag f = s.flag f := by
  cases i with
  | stc | cmc =>
    cases f
    case cf => cases hf
    all_goals rfl
  | inr r | dcr r =>
    cases f
    case ac => simp [State.after, State.flag]
    case cf => simp [State.after, State.flag]
    all_goals cases hf
  | add r | adc r | sub r | sbb r | ana r | xra r | ora r | cmp r =>
    cases f
    case ac => exact s.aluStep_flagAC _ r
    all_goals cases hf
  | cma | hlt | mov dst src | stax rp | ldax rp | lxi rp d16 | mvi r d8 | nop | unimpl op =>
    apply State.flag_eq_of_fields <;> simp [State.after]

/-! ## The statements -/

/-- Settles O47, from the register frame and what each instruction does to `SP`, `HALTED` and `LASTOP`. -/
theorem instructionsKeepOtherRegisters : Obligations.InstructionsKeepOtherRegisters := by
  intro i s t hexec
  obtain rfl := exec_eq_next_iff.mp hexec
  refine ⟨fun r hm hr => s.after_readOp hm hr, fun hi => State.after_sp hi s, fun hi => ?_, s.after_lastop i⟩
  rw [State.after_halted, if_neg hi]

/-- Settles O48, from the flag frame. -/
theorem instructionsKeepOtherFlags : Obligations.InstructionsKeepOtherFlags := by
  intro i s t f hexec hf
  obtain rfl := exec_eq_next_iff.mp hexec
  exact s.after_flag hf

/-- Settles O49: an address that is not that of the instruction's data write reads as before. -/
theorem instructionsKeepOtherMemory : Obligations.InstructionsKeepOtherMemory := by
  intro i s t hwf hexec
  obtain rfl := exec_eq_next_iff.mp hexec
  have hkeep : ∀ addr, s.dataWrite i ≠ some addr → (s.after i).read addr = s.read addr :=
    fun addr => State.after_read_of_ne hwf
  cases i with
  | inr r | dcr r | mov r src | mvi r d8 =>
    cases r
    case m => exact fun addr hne => hkeep addr (by simpa [State.dataWrite] using hne.symm)
    all_goals exact fun addr => hkeep addr nofun
  | stax rp => exact fun addr hne => hkeep addr (by simpa [State.dataWrite] using hne.symm)
  | _ => exact fun addr => hkeep addr nofun

end Sys2Proof.Machine
end

section
/-! Memory as data (10_state.md section 7, 20_memory.md section 1) and the host's actions: reset, load, observe
(70_reset_and_hazards.md R120, R122; 60_exceptions.md R110). -/

namespace Sys2Proof.Machine

/-! ## The canonical form is one form -/

/-- The byte listed first reads at its address. -/
theorem Memory.lookup_head (k : Nat) (w : Byte) (rest : Memory) : Memory.lookup ((k, w) :: rest) k = w := by
  rw [Memory.lookup, if_neg (lt_irrefl k), if_pos rfl]

/-- Beyond the first listed address the rest of the list is read. -/
theorem Memory.lookup_cons_of_gt {k j : Nat} (h : k < j) (w : Byte) (rest : Memory) :
    Memory.lookup ((k, w) :: rest) j = Memory.lookup rest j := by
  rw [Memory.lookup, if_neg (by omega), if_neg (by omega)]

/-- The first address of a canonical list cannot read as an unlisted cell in another list, so it is not below the other
list's addresses. -/
theorem Memory.lookup_head_ne_unlisted {lo k : Nat} {w : Byte} {rest : Memory}
    (hwf : Memory.wfFrom lo ((k, w) :: rest) = true) : Memory.lookup ((k, w) :: rest) k ≠ Memory.unlisted := by
  rw [Memory.lookup_head]
  exact ((Memory.wfFrom_cons lo k w rest).mp hwf).2.2.1

/-- Canonical lists that read alike below 65,536 are equal: their first entries are, and so are the rests. -/
theorem Memory.eq_of_lookup_eq : ∀ {m m' : Memory} {lo : Nat}, Memory.wfFrom lo m = true → Memory.wfFrom lo m' = true →
    (∀ k < 65536, Memory.lookup m k = Memory.lookup m' k) → m = m'
  | [], [], _, _, _, _ => rfl
  | [], (k', w') :: rest', lo, _, hwf', heq =>
    absurd (heq k' ((Memory.wfFrom_cons lo k' w' rest').mp hwf').2.1).symm (Memory.lookup_head_ne_unlisted hwf')
  | (k, w) :: rest, [], lo, hwf, _, heq =>
    absurd (heq k ((Memory.wfFrom_cons lo k w rest).mp hwf).2.1) (Memory.lookup_head_ne_unlisted hwf)
  | (k, w) :: rest, (k', w') :: rest', lo, hwf, hwf', heq => by
    obtain ⟨-, hk, -, hrest⟩ := (Memory.wfFrom_cons lo k w rest).mp hwf
    obtain ⟨-, hk', -, hrest'⟩ := (Memory.wfFrom_cons lo k' w' rest').mp hwf'
    have hle : ¬ k < k' := fun hlt =>
      Memory.lookup_head_ne_unlisted hwf ((heq k hk).trans (by rw [Memory.lookup, if_pos hlt]))
    have hge : ¬ k' < k := fun hlt =>
      Memory.lookup_head_ne_unlisted hwf' ((heq k' hk').symm.trans (by rw [Memory.lookup, if_pos hlt]))
    obtain rfl : k = k' := by omega
    obtain rfl : w = w' := by simpa only [Memory.lookup_head] using heq k hk
    have hrests : ∀ j < 65536, Memory.lookup rest j = Memory.lookup rest' j := by
      intro j hj
      rcases Nat.lt_or_ge k j with hgt | hle
      · simpa only [Memory.lookup_cons_of_gt hgt] using heq j hj
      · rw [Memory.lookup_of_lt hrest (by omega), Memory.lookup_of_lt hrest' (by omega)]
    rw [Memory.eq_of_lookup_eq hrest hrest' hrests]

/-! ## Writing a list of bytes -/

/-- After bytes were written from `addr` on (modulo 65536, and no longer than memory), the cell at a distance below
their number reads the byte there, every other cell as before (20_memory.md R38). -/
theorem Memory.read_writeBytes (other : Word) : ∀ (bytes : List Byte) {m : Memory} (addr : Word), m.wf = true →
    bytes.length ≤ 65536 →
    Memory.read (Memory.writeBytes m addr bytes) other = bytes.getD (other - addr).toNat (Memory.read m other)
  | [], _, _, _, _ => rfl
  | v :: rest, m, addr, hwf, hlen => by
    rw [List.length_cons] at hlen
    rw [Memory.writeBytes, Memory.read_writeBytes other rest (addr + 1) (Memory.wf_write hwf addr v) (by omega),
      Memory.read_write hwf]
    by_cases heq : other = addr
    · subst heq
      have hlast : (other - (other + 1)).toNat = 65535 := by bv_omega
      rw [hlast, if_pos rfl, List.getD_eq_default _ _ (by omega), BitVec.sub_self]
      rfl
    · have hdist : (other - addr).toNat = (other - (addr + 1)).toNat + 1 := by bv_omega
      rw [if_neg heq, hdist, List.getD_cons_succ]

/-! ## Load -/

/-- A load with no step taken and an image that fits writes it from address 0 on (70_reset_and_hazards.md R122). -/
theorem load_of_fits {buf : List Byte} {s : State} (hfirst : s.lastop = none) (hlen : buf.length ≤ 65536) :
    load buf s = .next (s.setMem (Memory.writeBytes s.mem 0 buf)) := by
  simp [load, loadAllowed, hfirst, hlen]

/-- With no step taken a longer image is refused (70_reset_and_hazards.md R122). -/
theorem load_of_too_long {buf : List Byte} {s : State} (hfirst : s.lastop = none) (hlen : 65536 < buf.length) :
    load buf s = .refused (.imageTooLong buf.length) := by
  simp [load, loadAllowed, hfirst, hlen]

/-- Once a step was taken a load is refused (20_memory.md R51). -/
theorem load_of_stepped {buf : List Byte} {s : State} (hstepped : s.lastop ≠ none) :
    load buf s = .refused .loadAfterFirstStep := by
  simp [load, loadAllowed, hstepped]

/-- A load that answers had an image that fits, and wrote it from address 0 on. -/
theorem load_eq_next {buf : List Byte} {s t : State} (hload : load buf s = .next t) :
    buf.length ≤ 65536 ∧ t = s.setMem (Memory.writeBytes s.mem 0 buf) := by
  by_cases hfirst : s.lastop = none
  · rcases Nat.lt_or_ge 65536 buf.length with hlen | hlen
    · cases (load_of_too_long hfirst hlen).symm.trans hload
    · cases (load_of_fits hfirst hlen).symm.trans hload
      exact ⟨hlen, rfl⟩
  · cases (load_of_stepped hfirst).symm.trans hload

/-! ## The statements -/

/-- Settles O3, one case of `load` for each clause. -/
theorem loadChangesOnlyMemory : Obligations.LoadChangesOnlyMemory :=
  fun _ _ => ⟨fun hfirst hlen => ⟨_, load_of_fits hfirst hlen, rfl⟩, load_of_too_long, load_of_stepped⟩

/-- Settles O5: a write is one store, and a load is a list of them at the distances from address 0. -/
theorem memReadReturnsLastWritten : Obligations.MemReadReturnsLastWritten := by
  refine ⟨fun _ => rfl, fun s addr other v hwf => State.read_write hwf addr other v, ?_⟩
  intro buf s t hwf hload addr
  obtain ⟨hlen, rfl⟩ := load_eq_next hload
  have hzero : addr - 0 = addr := BitVec.sub_zero addr
  have hread := Memory.read_writeBytes addr buf 0 hwf hlen
  rw [hzero] at hread
  exact hread

/-- Settles O6: every number below 65,536 is an address. -/
theorem canonicalMemoriesReadingAlikeAreEqual : Obligations.CanonicalMemoriesReadingAlikeAreEqual := by
  intro m m' hwf hwf' hread
  refine Memory.eq_of_lookup_eq hwf hwf' fun k hk => ?_
  simpa [Memory.read, Nat.mod_eq_of_lt hk] using hread (BitVec.ofNat 16 k)

/-- Settles O1: reset is the one reset state, whose memory lists no cell. -/
theorem resetFromAnyStateLeavesRuleValues : Obligations.ResetFromAnyStateLeavesRuleValues :=
  ⟨rfl, fun _ => ⟨rfl, rfl, rfl, rfl, rfl, rfl, rfl, rfl, rfl, rfl, rfl, rfl, rfl, rfl, rfl, rfl, rfl, fun _ => rfl⟩⟩

/-- Settles O2: the memory of the reset state is canonical, and the core is not halted. -/
theorem resetMeetsInv : Obligations.ResetMeetsInv := ⟨State.reset_mem_wf, nofun⟩

/-- Settles O4: `observe` lists the sixteen values. -/
theorem observeIsTheDumpTuple : Obligations.ObserveIsTheDumpTuple := fun _ => rfl

end Sys2Proof.Machine
end

section
/-! The moves and the small instructions: carry flag (40_carry_flag.md), move and halt (43_mov_hlt.md), indirect loads
and stores (44_ldax_stax.md), `LXI` (46_lxi.md), unimplemented opcodes (48_nop_unimplemented.md). -/

namespace Sys2Proof.Machine

/-! ## Pairs -/

/-- A pair as an address has its first-named register high (10_state.md R18, decision D12). -/
theorem State.bc_eq_wordOf (s : State) : s.bc = wordOf s.b s.c := pairOf_eq_wordOf s.b s.c

theorem State.de_eq_wordOf (s : State) : s.de = wordOf s.d s.e := pairOf_eq_wordOf s.d s.e

/-- The high byte of a pair value (10_state.md R18). -/
theorem highByte_wordOf (hi lo : Byte) : highByte (wordOf hi lo) = hi := by
  rw [← pairOf_eq_wordOf]
  exact pairOf_high hi lo

/-- The low byte of a pair value (10_state.md R18). -/
theorem lowByte_wordOf (hi lo : Byte) : lowByte (wordOf hi lo) = lo := by
  rw [← pairOf_eq_wordOf]
  exact pairOf_low hi lo

/-- A pair write puts the high byte in the first-named register and the low byte in the second (10_state.md R18). -/
theorem State.writePair_bc_wordOf (s : State) (hi lo : Byte) :
    s.writePair .bc (wordOf hi lo) = { s with b := hi, c := lo } := by
  rw [State.writePair, highByte_wordOf, lowByte_wordOf]
  rfl

theorem State.writePair_de_wordOf (s : State) (hi lo : Byte) :
    s.writePair .de (wordOf hi lo) = { s with d := hi, e := lo } := by
  rw [State.writePair, highByte_wordOf, lowByte_wordOf]
  rfl

theorem State.writePair_hl_wordOf (s : State) (hi lo : Byte) :
    s.writePair .hl (wordOf hi lo) = { s with h := hi, l := lo } := by
  rw [State.writePair, highByte_wordOf, lowByte_wordOf]
  rfl

/-- `LXI` writes its pair and advances `PC` by 3 (46_lxi.md R91). -/
theorem exec_lxi (rp : RegPair) (d16 : Word) (s : State) :
    exec (.lxi rp d16) s = .next ((s.writePair rp d16).advance 3) := rfl

/-! ## Move -/

/-- `MOV` writes the slot with the source's value and advances `PC` (43_mov_hlt.md R75). -/
theorem exec_mov (dst src : RegSel) (s : State) :
    exec (.mov dst src) s = .next { s.writeOp dst (s.readOp src) with pc := s.pc + 1 } := by
  rw [← State.writeOp_pc s dst (s.readOp src)]
  rfl

/-- A register slot reads what was written to it (10_state.md R20, R21). -/
theorem State.writeOp_readOp_same (s : State) {r : RegSel} (hr : r ≠ .m) (v : Byte) : (s.writeOp r v).readOp r = v := by
  rcases s.writeOp_cases r v with ⟨-, -, hread⟩ | ⟨hm, -⟩
  · exact hread
  · exact absurd hm hr

/-- Slot `m` reads what was written to it: `HL` is unchanged (10_state.md R20, R21). -/
theorem State.writeOp_m_readOp {s : State} (hwf : s.mem.wf = true) (v : Byte) : (s.writeOp .m v).readOp .m = v := by
  have hread := State.read_write hwf s.hl s.hl v
  rwa [if_pos rfl] at hread

/-- Writing a register with its own value changes nothing. -/
theorem State.writeOp_readOp_self (s : State) {r : RegSel} (hr : r ≠ .m) : s.writeOp r (s.readOp r) = s := by
  cases r
  case m => exact absurd rfl hr
  all_goals rfl

/-- Writing a register keeps every byte of memory. -/
theorem State.writeOp_read (s : State) {r : RegSel} (hr : r ≠ .m) (v : Byte) (addr : Word) :
    (s.writeOp r v).read addr = s.read addr := by
  rcases s.writeOp_cases r v with ⟨-, hmem, -⟩ | ⟨hm, -⟩
  · rw [State.read, hmem]
    rfl
  · exact absurd hm hr

/-! ## The statements -/

/-- Settles O9: a pair is its two bytes, high then low, both ways. -/
theorem pairsPutFirstRegisterHigh : Obligations.PairsPutFirstRegisterHigh :=
  fun _ v => ⟨pairOf_toNat _ _, pairOf_toNat _ _, pairOf_toNat _ _, rfl, rfl,
    pairOf_extract v, pairOf_extract v, pairOf_extract v, rfl⟩

/-- Settles O11: `STC` sets `CF` and advances `PC`. -/
theorem stcSetsCarryOnly : Obligations.StcSetsCarryOnly :=
  ⟨decode_whole rfl, exec_eq_next_after .stc⟩

/-- Settles O12: `CMC` inverts `CF` and advances `PC`. -/
theorem cmcComplementsCarryOnly : Obligations.CmcComplementsCarryOnly :=
  ⟨decode_whole rfl, exec_eq_next_after .cmc⟩

/-- Settles O16, from the form of the move and its next state. -/
theorem movWritesSourceToDestination : Obligations.MovWritesSourceToDestination :=
  fun dst src hwf => ⟨decode_whole (opForm_mov hwf), exec_mov dst src⟩

/-- Settles O17: the destination is a register, which reads what was written, or the cell at `HL`, which does with
`HL` unchanged; the source keeps its value as another register, or as a cell that no register move stores to. -/
theorem movDeliversSourceAndKeepsIt : Obligations.MovDeliversSourceAndKeepsIt := by
  intro dst src s hwf hslots
  refine ⟨(s.writeOp dst (s.readOp src)).advance 1, exec_eq_next_after (.mov dst src) s, ?_, ?_, ?_, ?_⟩
  · rw [State.advance_readOp]
    by_cases hdst : dst = .m
    · rw [hdst]
      exact State.writeOp_m_readOp hwf _
    · exact s.writeOp_readOp_same hdst _
  · intro hne hsrc
    rw [State.advance_readOp]
    exact s.writeOp_readOp_ne dst src _ hne hsrc
  · intro hsrc
    have hdst : dst ≠ .m := fun hdst => hslots ⟨hdst, hsrc⟩
    rw [State.advance_read]
    exact s.writeOp_read hdst _ _
  · rintro rfl
    have hdst : dst ≠ .m := fun hdst => hslots ⟨hdst, hdst⟩
    rw [s.writeOp_readOp_self hdst]
    rfl

/-- Settles O18: `HLT` under the policy in force advances `PC` and halts. -/
theorem hltAdvancesAndHalts : Obligations.HltAdvancesAndHalts :=
  ⟨decode_whole rfl, exec_eq_next_after .hlt⟩

/-- Settles O20: the pair addresses the cell that goes to `A`. -/
theorem ldaxLoadsAccumulatorThroughPair : Obligations.LdaxLoadsAccumulatorThroughPair := by
  refine ⟨decode_whole rfl, decode_whole rfl, fun s => ?_⟩
  rw [← s.bc_eq_wordOf, ← s.de_eq_wordOf]
  exact ⟨exec_eq_next_after (.ldax .bc) s, exec_eq_next_after (.ldax .de) s⟩

/-- Settles O21: one memory write at the pair's address. -/
theorem staxStoresAccumulatorThroughPair : Obligations.StaxStoresAccumulatorThroughPair :=
  ⟨decode_whole (opForm_stax .bc), decode_whole (opForm_stax .de), fun rp s hwf =>
    ⟨s.after (.stax rp), exec_eq_next_after (.stax rp) s, rfl, fun addr => State.read_write hwf _ addr s.a⟩⟩

/-- Settles O28: the two immediate bytes are the two bytes of the pair value, low first. -/
theorem lxiLoadsPairLowByteFirst : Obligations.LxiLoadsPairLowByteFirst := by
  intro lo hi
  constructor
  · intro rp rest
    rw [← pairOf_eq_wordOf]
    exact decode_needsD16 (opForm_lxi rp) lo hi rest
  · intro s
    rw [exec_lxi, exec_lxi, exec_lxi, exec_lxi, State.writePair_bc_wordOf, State.writePair_de_wordOf,
      State.writePair_hl_wordOf]
    exact ⟨rfl, rfl, rfl, rfl⟩

/-- Settles O31: each of the 92 values has the form of its own instruction, which advances `PC`. -/
theorem unimplementedOpcodeIsOneByteNoOp : Obligations.UnimplementedOpcodeIsOneByteNoOp :=
  fun op hop => ⟨decode_whole (opForm_unimpl op ((isUnimplemented_iff op).mpr hop)), exec_eq_next_after (.unimpl op)⟩

/-- Settles O56, each policy by its equation. -/
theorem haltAndUnimplementedUnderEachPolicy : Obligations.HaltAndUnimplementedUnderEachPolicy :=
  fun _ _ => ⟨rfl, rfl, rfl, rfl⟩

end Sys2Proof.Machine
end

section
/-! The accumulator group (45_alu.md): the 9-bit intermediate as a number (R80), the one shape of the eight next states,
and the statements over them (R81 to R90); the Auxiliary-Carry formulas (93_implementation_defined.md U4). -/

namespace Sys2Proof.Machine

/-! ## The 9-bit intermediate -/

/-- The low eight bits of a 9-bit number that equals `n` modulo 256. -/
theorem setWidth_eight_eq_ofNat {t : BitVec 9} {n : Nat} (hmod : t.toNat % 256 = n % 256) :
    t.setWidth 8 = BitVec.ofNat 8 n := by
  apply BitVec.eq_of_toNat_eq
  rw [BitVec.toNat_setWidth, BitVec.toNat_ofNat]
  exact hmod

/-- Bit 8 of a 9-bit number. -/
theorem getLsbD_eight_eq_decide_toNat (t : BitVec 9) : t.getLsbD 8 = decide (256 ≤ t.toNat) :=
  BitVec.msb_eq_decide t

/-- Widening keeps the number (00_scope.md R9). -/
theorem zext9_toNat (v : Byte) : (zext9 v).toNat = v.toNat := by
  rw [zext9, BitVec.toNat_setWidth, Nat.mod_eq_of_lt (by omega)]

theorem carry9_toNat (cf : Bool) : (carry9 cf).toNat = cf.toNat := by cases cf <;> rfl

/-- The sum with carry never reaches 512 (45_alu.md R82). -/
theorem aluT_adc_toNat (a v : Byte) (cf : Bool) :
    (aluT .adc a v cf).toNat = a.toNat + v.toNat + cf.toNat := by
  have hcf := cf.toNat_le
  rw [aluT, BitVec.toNat_add, BitVec.toNat_add, zext9_toNat, zext9_toNat, carry9_toNat]
  omega

/-- The difference with borrow, modulo 512 (45_alu.md R84, decision D16). -/
theorem aluT_sbb_toNat (a v : Byte) (cf : Bool) :
    (aluT .sbb a v cf).toNat = (a.toNat + 512 - (v.toNat + cf.toNat)) % 512 := by
  have hcf := cf.toNat_le
  rw [aluT, BitVec.toNat_sub, BitVec.toNat_sub, zext9_toNat, zext9_toNat, carry9_toNat]
  omega

/-- `ADD` is `ADC` without a carry (45_alu.md R89). -/
theorem aluT_add_eq_adc (a v : Byte) (cf : Bool) : aluT .add a v cf = aluT .adc a v false :=
  (BitVec.add_zero (zext9 a + zext9 v)).symm

/-- `SUB` is `SBB` without a borrow (45_alu.md R89). -/
theorem aluT_sub_eq_sbb (a v : Byte) (cf : Bool) : aluT .sub a v cf = aluT .sbb a v false :=
  (BitVec.sub_zero (zext9 a - zext9 v)).symm

/-! ## Result and carry of each operation -/

/-- `ADC`: the sum modulo 256, carry when it reaches 256 (45_alu.md R82). -/
theorem aluT_adc_low (a v : Byte) (cf : Bool) :
    (aluT .adc a v cf).setWidth 8 = BitVec.ofNat 8 ((a.toNat + v.toNat + cf.toNat) % 256) :=
  setWidth_eight_eq_ofNat (by rw [aluT_adc_toNat, Nat.mod_mod])

theorem aluT_adc_carry (a v : Byte) (cf : Bool) :
    (aluT .adc a v cf).getLsbD 8 = decide (256 ≤ a.toNat + v.toNat + cf.toNat) := by
  rw [getLsbD_eight_eq_decide_toNat, aluT_adc_toNat]

/-- `SBB`: the difference modulo 256, borrow when the operand and the incoming borrow exceed `A` (45_alu.md R84). -/
theorem aluT_sbb_low (a v : Byte) (cf : Bool) :
    (aluT .sbb a v cf).setWidth 8 = BitVec.ofNat 8 ((a.toNat + 256 - (v.toNat + cf.toNat)) % 256) := by
  have hcf := cf.toNat_le
  apply setWidth_eight_eq_ofNat
  rw [aluT_sbb_toNat]
  omega

theorem aluT_sbb_carry (a v : Byte) (cf : Bool) :
    (aluT .sbb a v cf).getLsbD 8 = decide (a.toNat < v.toNat + cf.toNat) := by
  have hcf := cf.toNat_le
  rw [getLsbD_eight_eq_decide_toNat, aluT_sbb_toNat, decide_eq_decide]
  omega

/-- `ADD`: the sum modulo 256, carry when it reaches 256 (45_alu.md R81). -/
theorem aluT_add_low (a v : Byte) (cf : Bool) :
    (aluT .add a v cf).setWidth 8 = BitVec.ofNat 8 ((a.toNat + v.toNat) % 256) := by
  rw [aluT_add_eq_adc]
  exact aluT_adc_low a v false

theorem aluT_add_carry (a v : Byte) (cf : Bool) :
    (aluT .add a v cf).getLsbD 8 = decide (256 ≤ a.toNat + v.toNat) := by
  rw [aluT_add_eq_adc]
  exact aluT_adc_carry a v false

/-- `SUB`: the difference modulo 256, borrow when the operand exceeds `A` (45_alu.md R83). -/
theorem aluT_sub_low (a v : Byte) (cf : Bool) :
    (aluT .sub a v cf).setWidth 8 = BitVec.ofNat 8 ((a.toNat + 256 - v.toNat) % 256) := by
  rw [aluT_sub_eq_sbb]
  exact aluT_sbb_low a v false

theorem aluT_sub_carry (a v : Byte) (cf : Bool) :
    (aluT .sub a v cf).getLsbD 8 = decide (a.toNat < v.toNat) := by
  rw [aluT_sub_eq_sbb]
  exact aluT_sbb_carry a v false

/-- The logical operations leave a widened byte: the byte itself and no carry (45_alu.md R85 to R87, decision D15). -/
theorem zext9_low (v : Byte) : (zext9 v).setWidth 8 = v := BitVec.setWidth_setWidth_of_le v (by decide)

theorem zext9_carry (v : Byte) : (zext9 v).getLsbD 8 = false := by
  rw [getLsbD_eight_eq_decide_toNat, zext9_toNat, decide_eq_false_iff_not]
  omega

/-! ## The next states -/

/-- The next state of an ALU instruction with an 8-bit result and a carry, `AC` held (45_alu.md R80, decision D4). -/
def State.withAluResult (s : State) (res : Byte) (cf : Bool) : State :=
  { s with
    a := res
    flagCF := cf
    flagZ := decide (res.toNat = 0)
    flagS := decide (128 ≤ res.toNat)
    flagP := evenOnes res
    pc := s.pc + 1 }

/-- Seven of the eight operations store their result; the operation enters through result and carry only. -/
theorem State.aluStep_eq_withAluResult {s : State} {op : AluOp} {r : RegSel} {res : Byte} {cf : Bool}
    (hop : op ≠ .cmp) (hres : (aluT op s.a (s.readOp r) s.flagCF).setWidth 8 = res)
    (hcf : (aluT op s.a (s.readOp r) s.flagCF).getLsbD 8 = cf) : s.aluStep op r = s.withAluResult res cf := by
  rw [State.aluStep_eq, if_neg hop, hres, hcf, acUnder_config, beq_zero_eq_decide_toNat,
    getLsbD_seven_eq_decide_toNat, parity8_eq_evenOnes]
  rfl

/-- `CMP` is `SUB` with `A` kept (45_alu.md R88, R89). -/
theorem State.aluStep_cmp_eq (s : State) (r : RegSel) :
    s.aluStep .cmp r = { s.aluStep .sub r with a := s.a } := by
  rw [State.aluStep_eq, State.aluStep_eq]
  rfl

theorem State.aluStep_add (s : State) (r : RegSel) :
    s.aluStep .add r = s.withAluResult (BitVec.ofNat 8 ((s.a.toNat + (s.readOp r).toNat) % 256))
      (decide (256 ≤ s.a.toNat + (s.readOp r).toNat)) :=
  State.aluStep_eq_withAluResult (by decide) (aluT_add_low _ _ _) (aluT_add_carry _ _ _)

theorem State.aluStep_adc (s : State) (r : RegSel) :
    s.aluStep .adc r = s.withAluResult (BitVec.ofNat 8 ((s.a.toNat + (s.readOp r).toNat + s.flagCF.toNat) % 256))
      (decide (256 ≤ s.a.toNat + (s.readOp r).toNat + s.flagCF.toNat)) :=
  State.aluStep_eq_withAluResult (by decide) (aluT_adc_low _ _ _) (aluT_adc_carry _ _ _)

theorem State.aluStep_sub (s : State) (r : RegSel) :
    s.aluStep .sub r = s.withAluResult (BitVec.ofNat 8 ((s.a.toNat + 256 - (s.readOp r).toNat) % 256))
      (decide (s.a.toNat < (s.readOp r).toNat)) :=
  State.aluStep_eq_withAluResult (by decide) (aluT_sub_low _ _ _) (aluT_sub_carry _ _ _)

theorem State.aluStep_sbb (s : State) (r : RegSel) :
    s.aluStep .sbb r =
      s.withAluResult (BitVec.ofNat 8 ((s.a.toNat + 256 - ((s.readOp r).toNat + s.flagCF.toNat)) % 256))
        (decide (s.a.toNat < (s.readOp r).toNat + s.flagCF.toNat)) :=
  State.aluStep_eq_withAluResult (by decide) (aluT_sbb_low _ _ _) (aluT_sbb_carry _ _ _)

theorem State.aluStep_ana (s : State) (r : RegSel) :
    s.aluStep .ana r = s.withAluResult (s.a &&& s.readOp r) false :=
  State.aluStep_eq_withAluResult (by decide) (zext9_low _) (zext9_carry _)

theorem State.aluStep_xra (s : State) (r : RegSel) :
    s.aluStep .xra r = s.withAluResult (s.a ^^^ s.readOp r) false :=
  State.aluStep_eq_withAluResult (by decide) (zext9_low _) (zext9_carry _)

theorem State.aluStep_ora (s : State) (r : RegSel) :
    s.aluStep .ora r = s.withAluResult (s.a ||| s.readOp r) false :=
  State.aluStep_eq_withAluResult (by decide) (zext9_low _) (zext9_carry _)

/-- Two bytes are equal when their difference modulo 256 is zero. -/
theorem sub_mod_eq_zero_iff (a v : Byte) :
    (BitVec.ofNat 8 ((a.toNat + 256 - v.toNat) % 256)).toNat = 0 ↔ a = v := by
  rw [BitVec.toNat_ofNat, ← BitVec.toNat_inj]
  omega

/-! ## The operand `A` itself -/

/-- Doubling a byte carries as its bit 7 says, whatever comes in (45_alu.md R90). -/
theorem carry_add_self (a : Byte) (cf : Bool) :
    decide (256 ≤ a.toNat + a.toNat + cf.toNat) = a.getLsbD 7 := by
  have hcf := cf.toNat_le
  rw [getLsbD_seven_eq_decide_toNat, decide_eq_decide]
  omega

/-- A byte less itself and a borrow is 0 or 255 (45_alu.md R90). -/
theorem sub_self_low (a : Byte) (cf : Bool) :
    BitVec.ofNat 8 ((a.toNat + 256 - (a.toNat + cf.toNat)) % 256) = if cf then 0xFF else 0x00 := by
  rw [Nat.add_sub_add_left]
  cases cf <;> rfl

/-- A byte less itself and a borrow borrows when one came in (45_alu.md R90). -/
theorem borrow_sub_self (a : Byte) (cf : Bool) : decide (a.toNat < a.toNat + cf.toNat) = cf := by
  cases cf <;> simp

theorem State.readOp_a (s : State) : s.readOp .a = s.a := rfl

/-- `ADD A` doubles (45_alu.md R90). -/
theorem State.aluStep_add_self (s : State) :
    s.aluStep .add .a = s.withAluResult (BitVec.ofNat 8 (2 * s.a.toNat % 256)) (s.a.getLsbD 7) := by
  rw [State.aluStep_add, State.readOp_a, Nat.two_mul]
  exact congrArg _ (carry_add_self s.a false)

/-- `ADC A` doubles and adds the carry (45_alu.md R90). -/
theorem State.aluStep_adc_self (s : State) :
    s.aluStep .adc .a =
      s.withAluResult (BitVec.ofNat 8 ((2 * s.a.toNat + s.flagCF.toNat) % 256)) (s.a.getLsbD 7) := by
  rw [State.aluStep_adc, State.readOp_a, Nat.two_mul, carry_add_self]

/-- `SUB A` clears (45_alu.md R90). -/
theorem State.aluStep_sub_self (s : State) : s.aluStep .sub .a = s.withAluResult 0x00 false := by
  rw [State.aluStep_sub, State.readOp_a]
  exact congrArg₂ s.withAluResult (sub_self_low s.a false) (borrow_sub_self s.a false)

/-- `SBB A` spreads the carry over the byte (45_alu.md R90). -/
theorem State.aluStep_sbb_self (s : State) :
    s.aluStep .sbb .a = s.withAluResult (if s.flagCF then 0xFF else 0x00) s.flagCF := by
  rw [State.aluStep_sbb, State.readOp_a, sub_self_low, borrow_sub_self]

/-- `ANA A` keeps `A` and clears `CF` (45_alu.md R90). -/
theorem State.aluStep_ana_self (s : State) : s.aluStep .ana .a = s.withAluResult s.a false := by
  rw [State.aluStep_ana, State.readOp_a, BitVec.and_self]

/-- `XRA A` clears (45_alu.md R90). -/
theorem State.aluStep_xra_self (s : State) : s.aluStep .xra .a = s.withAluResult 0x00 false := by
  rw [State.aluStep_xra, State.readOp_a, BitVec.xor_self]
  rfl

/-- `ORA A` keeps `A` and clears `CF` (45_alu.md R90). -/
theorem State.aluStep_ora_self (s : State) : s.aluStep .ora .a = s.withAluResult s.a false := by
  rw [State.aluStep_ora, State.readOp_a, BitVec.or_self]

/-- `CMP A` sets the flags of zero and keeps `A` (45_alu.md R90). -/
theorem State.aluStep_cmp_self (s : State) :
    s.aluStep .cmp .a = { s.withAluResult 0x00 false with a := s.a } := by
  rw [State.aluStep_cmp_eq, State.aluStep_sub_self]

/-! ## Auxiliary-Carry -/

/-- The low nibble of the inverted byte is 15 less the low nibble. -/
theorem lowNibble_not (v : Byte) : lowNibble (~~~v) = 15 - v.toNat % 16 := by
  rw [lowNibble, BitVec.toNat_not]
  omega

/-- The carry out of bit 3 of the inverted addition says that the low nibble of `A` is not below that of the operand
plus the borrow (93_implementation_defined.md U4). -/
theorem acOfSub_eq_decide (a v : Byte) (cf : Bool) :
    acOfSub a v cf = decide (v.toNat % 16 + cf.toNat ≤ a.toNat % 16) := by
  have hcf := cf.toNat_le
  rw [acOfSub, lowNibble_not, lowNibble, decide_eq_decide]
  omega

/-! ## The statements -/

/-- Settles O22, from the form of selector 000 and the next state of `ADD`. -/
theorem addSetsSumAndCarry : Obligations.AddSetsSumAndCarry :=
  fun r => ⟨decode_whole (opForm_encodeAlu 0b000 r), fun s => congrArg Host.Outcome.next (s.aluStep_add r)⟩

/-- Settles O23, from the form of selector 001 and the next state of `ADC`. -/
theorem adcSetsSumWithCarryIn : Obligations.AdcSetsSumWithCarryIn :=
  fun r => ⟨decode_whole (opForm_encodeAlu 0b001 r), fun s => congrArg Host.Outcome.next (s.aluStep_adc r)⟩

/-- Settles O24, from the form of selector 010 and the next state of `SUB`. -/
theorem subSetsDifferenceAndBorrow : Obligations.SubSetsDifferenceAndBorrow :=
  fun r => ⟨decode_whole (opForm_encodeAlu 0b010 r), fun s => congrArg Host.Outcome.next (s.aluStep_sub r)⟩

/-- Settles O25, from the form of selector 011 and the next state of `SBB`. -/
theorem sbbSetsDifferenceWithBorrowIn : Obligations.SbbSetsDifferenceWithBorrowIn :=
  fun r => ⟨decode_whole (opForm_encodeAlu 0b011 r), fun s => congrArg Host.Outcome.next (s.aluStep_sbb r)⟩

/-- Settles O26, from the forms of selectors 100 to 110 and the next states of `ANA`, `XRA`, `ORA`. -/
theorem logicalOpsClearCarry : Obligations.LogicalOpsClearCarry :=
  fun r => ⟨decode_whole (opForm_encodeAlu 0b100 r), decode_whole (opForm_encodeAlu 0b101 r),
    decode_whole (opForm_encodeAlu 0b110 r), fun s =>
      ⟨congrArg Host.Outcome.next (s.aluStep_ana r), congrArg Host.Outcome.next (s.aluStep_xra r),
        congrArg Host.Outcome.next (s.aluStep_ora r)⟩⟩

/-- Settles O27: `CMP` is `SUB` with `A` kept, and the difference is zero when the operands are equal. -/
theorem cmpSetsFlagsAndKeepsAccumulator : Obligations.CmpSetsFlagsAndKeepsAccumulator := by
  refine fun r => ⟨decode_whole (opForm_encodeAlu 0b111 r), fun s => ?_⟩
  rw [exec_eq_next_after, State.after, State.aluStep_cmp_eq, State.aluStep_sub, State.withAluResult]
  simp only [sub_mod_eq_zero_iff]

/-- Settles O53: without a carry the intermediates of `ADC` and `ADD`, `SBB` and `SUB` are the same; `CMP` is `SUB` with
`A` kept; the difference is the sum with the two's complement, as numbers modulo 256. -/
theorem aluIdentities : Obligations.AluIdentities := by
  refine ⟨fun r s hcf => ?_, fun r s => ?_, fun a v cf => ?_⟩
  · constructor
    · rw [exec_eq_next_after, exec_eq_next_after, State.after, State.after, State.aluStep_adc, State.aluStep_add, hcf]
      rfl
    · rw [exec_eq_next_after, exec_eq_next_after, State.after, State.after, State.aluStep_sbb, State.aluStep_sub, hcf]
      rfl
  · exact ⟨s.aluStep .sub r, rfl, congrArg Host.Outcome.next (s.aluStep_cmp_eq r)⟩
  · have hneg : (BitVec.ofNat 8 ((256 - v.toNat) % 256)).toNat = (256 - v.toNat) % 256 := by
      rw [BitVec.toNat_ofNat, Nat.mod_mod]
    rw [aluT_sub_low, aluT_add_low, aluT_sub_carry, aluT_add_carry, hneg]
    refine ⟨congrArg (BitVec.ofNat 8) (by omega), fun hv => ?_, fun hv => ?_⟩
    · have hpos : v.toNat ≠ 0 := fun hzero => hv (BitVec.eq_of_toNat_eq hzero)
      rw [← decide_not, decide_eq_decide]
      omega
    · rw [hv]
      exact decide_eq_false (Nat.not_lt_zero _)

/-- Settles O54, one clause for each operation. -/
theorem aluOnAccumulatorItself : Obligations.AluOnAccumulatorItself :=
  fun s => ⟨congrArg Host.Outcome.next s.aluStep_add_self, congrArg Host.Outcome.next s.aluStep_adc_self,
    congrArg Host.Outcome.next s.aluStep_sub_self, congrArg Host.Outcome.next s.aluStep_sbb_self,
    congrArg Host.Outcome.next s.aluStep_ana_self, congrArg Host.Outcome.next s.aluStep_xra_self,
    congrArg Host.Outcome.next s.aluStep_ora_self, congrArg Host.Outcome.next s.aluStep_cmp_self⟩

/-- Settles O55: the nibble sums of each formula, and the policies by their equations. -/
theorem auxiliaryCarryUnderEachPolicy : Obligations.AuxiliaryCarryUnderEachPolicy := by
  refine ⟨fun _ _ => ⟨rfl, rfl⟩, fun a v cf => ?_⟩
  refine ⟨rfl, rfl, acOfSub_eq_decide a v false, acOfSub_eq_decide a v false, acOfSub_eq_decide a v cf, ?_, rfl, rfl,
    ?_, ?_⟩
  · exact BitVec.getLsbD_or
  · rw [acOfInr, lowNibble, beq_eq_decide]
  · rw [acOfDcr, lowNibble, beq_eq_decide, ← decide_not]

end Sys2Proof.Machine
end
